-- ==== Sys2Proof/Word.lean ====
section
/-! DEFINITION. The byte of the two serial links (R190). -/

namespace Sys2Proof

/-- One byte of a frame (R190). -/
abbrev Byte := BitVec 8

end Sys2Proof
end

