-- ==== Sys2Proof/Config.lean ====
section
/-! DEFINITION. The free values of the model: what the spec leaves open where the block goes on. None has a body, so no
proof can lean on a value. -/

namespace Sys2Proof.Config

/-- Whether a flag or presence byte that is neither 0 nor 1 counts as set (R190 gives flags the bytes 0 and 1 alone).
Log 1. -/
opaque oddFlag : Byte → Bool

/-- The reason byte of the refusal of a request whose alternative selector names none of its alternatives (R190, R193),
as a number that is taken modulo the sixteen reasons. Log 2. -/
opaque badSelectorReason : List Byte → Nat

/-- Figure `k` of the array after the `n`-th free value taken, where a power reset cut off a sealed write (R54). Log 9. -/
opaque tornFigure : Nat → Nat → Nat

/-- Whether PRINT_DISCARD makes a pending swap before the composer queues (R182 lets either be first). Log 26. -/
opaque swapBeforeComposer : Nat → Bool

/-- The text printed for the unit price of an ITEM line of the given quantity that has none (R126). Log 31. -/
opaque absentUnitPriceText : Nat → List Byte

end Sys2Proof.Config
end

