-- ==== Sys2Proof/Syntax.lean ====
section
/-! DEFINITION. The commands of the block: one constructor of `Instr` per row of spec/opcode_table.json, with the fields
that the rule of the row gives it. A request carries the tag its response echoes (R190, R193); its integers are whatever
its wire width can carry, since the block itself answers RANGE and LENGTH. -/

namespace Sys2Proof

/-- The two stripe tracks (chapter 5). -/
inductive Track where
  | a
  | b
  deriving DecidableEq, Repr

/-- The place that LINE_READ names (R87), as the enumerated byte of R190 carries it; a byte that names none is log 63. -/
inductive SalePlace where
  | opened
  | closing
  | other (code : Nat)
  deriving DecidableEq, Repr

/-- What an accepted referral is priced from (R40, R74). -/
inductive ReferralPrice where
  | unitPrice (u : Nat)
  | amount (a : Int)
  deriving DecidableEq, Repr

/-- How a sealed write ends (R55). -/
inductive WriteEnd where
  | completed
  | timedOut
  deriving DecidableEq, Repr

/-- The level that each sampled input shows (R107, R120, R148); a reset takes its debounced states from one sample. -/
structure Pins where
  drawerOpen    : Bool
  nearEnd       : Bool
  paperOut      : Bool
  coverOpen     : Bool
  headHot       : Bool
  cutterHome    : Bool
  supplyWarning : Bool
  deriving DecidableEq, Repr

/-- The commands: the rows of spec/opcode_table.json. -/
inductive Instr where
  -- resets (R188, R56)
  | powerReset (pins : Pins)
  | pinReset (pins : Pins)
  | resetAfterWrite (how : WriteEnd) (pins : Pins)
  | linkReset (pins : Pins)
  -- the lane link (chapter 11)
  | startupTimer
  | laneFrameReceived (bytes : List Byte)
  | receiveGapTimeout
  | unknownRequest (tag : Byte) (payload : List Byte)
  | transmitEnd
  | controllerReset (tag : Byte)
  | laneStart (tag : Byte)
  | setNoticeMask (tag : Byte) (flags : Vector Bool 15)
  | readEvents (tag : Byte)
  | setParam (tag : Byte) (name : List Byte) (value : BitVec 32)
  | getParam (tag : Byte) (name : List Byte)
  | laneStatus (tag : Byte)
  -- the weighing channel (chapter 1)
  | sample (value : Int)
  | converterWatch
  | zeroTrackingExpiry
  | captureTimerExpiry
  | disturbanceWindowClose
  | weighRestart (tag : Byte)
  | weighZero (tag : Byte)
  | weighTare (tag : Byte)
  | weighPresetTare (tag : Byte) (grams : Nat)
  | weighClearTare (tag : Byte)
  | weighCapture (tag : Byte) (plu : Nat)
  | weighCancel (tag : Byte)
  | weighTestOn (tag : Byte) (offset : Int)
  | weighTestOff (tag : Byte)
  | weighRead (tag : Byte)
  -- calibration and the sealed store (chapter 3)
  | calibrationSwitchChange (closed : Bool)
  | calEnter (tag : Byte)
  | calLeave (tag : Byte)
  | calZero (tag : Byte)
  | calSpan (tag : Byte) (mcal : Nat)
  | calRanges (tag : Byte) (max1 e1 max e2 : Nat)
  | calStepTimeout
  | calCommit (tag : Byte)
  | storeRead (tag : Byte)
  | writeComplete
  | writeTimeout
  -- the sale (chapter 4)
  | saleOpen (tag : Byte)
  | itemAdd (tag : Byte) (plu quantity : Nat)
  | itemText (tag : Byte) (text : List Byte) (amount : Int)
  | lineVoid (tag : Byte) (line : Nat)
  | referralAnswerAccept (tag : Byte) (line : Nat) (price : ReferralPrice)
  | referralAnswerReject (tag : Byte) (line : Nat)
  | referralTimerExpiry (line : Nat)
  | tenderCash (tag : Byte) (amount : Nat)
  | tenderCard (tag : Byte) (amount serial : Nat)
  | cardApprove (tag : Byte) (code : List Byte)
  | cardDecline (tag : Byte)
  | authorizationTimeout
  | saleSuspend (tag : Byte)
  | saleResume (tag : Byte)
  | saleAbort (tag : Byte)
  | noSale (tag : Byte)
  | saleRead (tag : Byte)
  | lineRead (tag : Byte) (place : SalePlace) (line : Nat)
  -- card stripe reading (chapter 5)
  | swipeEnd
  | cardRecordExpiry
  | cardRead (tag : Byte)
  | cardRelease (tag : Byte) (serial : Nat)
  -- the till (chapter 6)
  | drawerSwitchOpens
  | drawerSwitchCloses
  | pulseTimerExpiry
  | confirmTimerExpiry
  | overdueTimerExpiry
  | tillClear (tag : Byte)
  | tillRead (tag : Byte)
  -- receipt printing (chapter 7)
  | phaseEnd
  | rowEnd
  | feedStepEnd
  | cutterCycleComplete
  | cutterTimeout
  | paperOutChange (out : Bool)
  | coverOpenChange (opened : Bool)
  | headHotChange (hot : Bool)
  | paperNearEndChange (nearEnd : Bool)
  | printResume (tag : Byte)
  | printDiscard (tag : Byte)
  | printText (tag : Byte) (text : List Byte) (double cut : Bool)
  | printFeed (tag : Byte) (rows : Nat)
  | printCut (tag : Byte)
  | printRead (tag : Byte)
  -- the pulse budget (chapter 8)
  | grantExpiry
  | supplyWarningChange (on : Bool)
  | budgetRead (tag : Byte)
  -- the accessory port (chapter 9)
  | roundStart
  | accessoryAnswer (bytes : List Byte)
  | answerTimeout
  | mirrorTimer
  | accessoryRead (tag : Byte)
  -- loaded tables (chapter 10)
  | tableBegin (tag : Byte) (name : List Byte)
  | tableRecord (tag : Byte) (entry : List Byte)
  | tableEnd (tag : Byte) (count : Nat)
  | tableIdleTimeout
  | tableCancel (tag : Byte) (name : List Byte)
  | tableRead (tag : Byte) (name : List Byte) (index : Nat)
  | tableStatus (tag : Byte)
  -- the rows that stand last in the table
  | stripeFluxTransition (track : Track) (time : Nat)
  | impossibleFrameLength (length : Byte)
  | cutterHomeSwitchChange (home : Bool)
  deriving DecidableEq, Repr

end Sys2Proof
end

