-- ==== Sys2Proof/Decode.lean ====
section
/-! DEFINITION. Reading bytes: the frame check (R190, R53), the fields of a request's payload, a request's payload as a
command, and the table's words (no row of spec/opcode_table.json gives bits, so no word spells a command). Total on any
bytes; what is no request comes back as the reason the router gives (R193). -/

namespace Sys2Proof

/-! ## Bytes -/

/-- Text as its bytes (00_scope.md, Text). -/
def ascii (s : String) : List Byte := s.toList.map fun c => BitVec.ofNat 8 c.toNat

/-- One shift of the CRC x^16 + x^12 + x^5 + 1, most significant bit first (R190). -/
def crcShift (c : BitVec 16) : BitVec 16 := if c.msb then (c <<< 1) ^^^ 0x1021 else c <<< 1

/-- The CRC with one byte taken in (R190). -/
def crcByte (c : BitVec 16) (b : Byte) : BitVec 16 :=
  crcShift (crcShift (crcShift (crcShift (crcShift (crcShift (crcShift (crcShift (c ^^^ ((b.setWidth 16) <<< 8)))))))))

/-- The frame check: initial value 0xFFFF, no final inversion (R190). -/
def crc16 (bytes : List Byte) : BitVec 16 := bytes.foldl crcByte 0xFFFF

/-- The low `n` bytes of a number, most significant first (R190). -/
def natBytes : Nat → Nat → List Byte
  | 0, _ => []
  | n + 1, v => BitVec.ofNat 8 (v / 256 ^ n) :: natBytes n v

/-- An integer in `n` bytes, big-endian two's complement (R190). -/
def intBytes (n : Nat) (v : Int) : List Byte := natBytes n (v % (256 ^ n : Nat)).toNat

/-- The number that bytes spell, most significant first (R190). -/
def bytesNat (bs : List Byte) : Nat := bs.foldl (fun a b => a * 256 + b.toNat) 0

/-- A frame of R190 as its bytes: start, length, unit, kind, tag, payload, check. -/
def frameBytes (unit kind : Nat) (tag : Byte) (payload : List Byte) : List Byte :=
  let inner := BitVec.ofNat 8 (payload.length + 3) :: BitVec.ofNat 8 unit :: BitVec.ofNat 8 kind :: tag :: payload
  0xA5 :: inner ++ natBytes 2 (crc16 inner).toNat

/-! ## Reading fields (R190) -/

/-- A reader takes fields from the front of the bytes; `none` says that they are too few. -/
abbrev Reader (α : Type) := List Byte → Option (α × List Byte)

def Reader.pure {α : Type} (a : α) : Reader α := fun bs => some (a, bs)

/-- One reader, then the next. -/
def Reader.andThen {α β : Type} (p : Reader α) (f : α → Reader β) : Reader β := fun bs =>
  match p bs with
  | some (a, rest) => f a rest
  | none => none

/-- `n` bytes. -/
def readBytes (n : Nat) : Reader (List Byte) := fun bs =>
  if bs.length < n then none else some (bs.take n, bs.drop n)

/-- An unsigned integer of `n` bytes. -/
def readNat (n : Nat) : Reader Nat := (readBytes n).andThen fun b => .pure (bytesNat b)

/-- A signed integer of 4 bytes. -/
def readInt : Reader Int := (readNat 4).andThen fun v => .pure (if v < 2 ^ 31 then v else (v : Int) - 2 ^ 32)

/-- A text or a name: a count byte and the bytes. -/
def readText : Reader (List Byte) := (readNat 1).andThen readBytes

/-- What a flag byte says; a byte other than 0 and 1 is free (log 1). -/
def flagOf (b : Byte) : Bool := if b = 0 then false else if b = 1 then true else Config.oddFlag b

/-- A flag byte. -/
def readFlag : Reader Bool := (readBytes 1).andThen fun b => .pure (flagOf (b.headD 0))

/-- An optional field: a presence byte, and the field when present. -/
def readOpt {α : Type} (p : Reader α) : Reader (Option α) :=
  readFlag.andThen fun there => if there then p.andThen fun a => .pure (some a) else .pure none

/-- `n` flags. -/
def readFlags : Nat → Reader (List Bool)
  | 0 => .pure []
  | n + 1 => readFlag.andThen fun b => (readFlags n).andThen fun bs => .pure (b :: bs)

/-- `n` integers of two bytes each. -/
def readRows : Nat → Reader (List Nat)
  | 0 => .pure []
  | n + 1 => (readNat 2).andThen fun v => (readRows n).andThen fun vs => .pure (v :: vs)

/-! ## Requests (R190, R193) -/

/-- What a payload is to the router. -/
inductive Parsed where
  | request (i : Instr)
  /-- No request of the manual has this name. -/
  | unknown
  /-- The payload's size is not the size its fields give. -/
  | badSize
  /-- An alternative selector names no alternative (log 2). -/
  | badSelector
  deriving DecidableEq, Repr

/-- A request's fields read to the last byte. -/
def whole (p : Reader Parsed) (bs : List Byte) : Parsed :=
  match p bs with
  | some (.badSelector, _) => .badSelector
  | some (r, []) => r
  | some (_, _ :: _) => .badSize
  | none => .badSize

/-- The fields of WEIGH_TEST: *on* with an offset, or *off* (R24, R25). -/
def readWeighTest (tag : Byte) : Reader Parsed := (readNat 1).andThen fun
  | 0 => readInt.andThen fun o => .pure (.request (.weighTestOn tag o))
  | 1 => .pure (.request (.weighTestOff tag))
  | _ => .pure .badSelector

/-- The fields of REFERRAL_ANSWER: a line number, and an acceptance with its price or a rejection (R74). -/
def readReferralAnswer (tag : Byte) : Reader Parsed := (readNat 1).andThen fun n => (readNat 1).andThen fun
  | 0 => (readNat 1).andThen fun
    | 0 => (readNat 4).andThen fun u => .pure (.request (.referralAnswerAccept tag n (.unitPrice u)))
    | 1 => readInt.andThen fun a => .pure (.request (.referralAnswerAccept tag n (.amount a)))
    | _ => .pure .badSelector
  | 1 => .pure (.request (.referralAnswerReject tag n))
  | _ => .pure .badSelector

/-- The place byte of LINE_READ (R87, R190). -/
def salePlace : Nat → SalePlace
  | 0 => .opened
  | 1 => .closing
  | n => .other n

/-- The fifteen flags of SET_NOTICE_MASK as a vector. -/
def maskOf (l : List Bool) : Vector Bool 15 := Vector.ofFn fun i => l.getD i.val false

/-- A request without fields. -/
def plain (i : Instr) : Reader Parsed := .pure (.request i)

/-- A request of one unsigned integer of `n` bytes. -/
def oneNat (n : Nat) (f : Nat → Instr) : Reader Parsed := (readNat n).andThen fun v => .pure (.request (f v))

/-- A request of one text or name. -/
def oneText (f : List Byte → Instr) : Reader Parsed := readText.andThen fun t => .pure (.request (f t))

/-- The requests of the manual: name and reader of the fields (R190: the fields stand in the order their rules name them). -/
def requestTable (tag : Byte) : List (String × Reader Parsed) :=
  [ ("CONTROLLER_RESET", plain (.controllerReset tag)),
    ("LANE_START", plain (.laneStart tag)),
    ("SET_NOTICE_MASK", (readFlags 15).andThen fun l => .pure (.request (.setNoticeMask tag (maskOf l)))),
    ("READ_EVENTS", plain (.readEvents tag)),
    ("SET_PARAM", readText.andThen fun t => (readNat 4).andThen fun v => .pure (.request (.setParam tag t (BitVec.ofNat 32 v)))),
    ("GET_PARAM", oneText (.getParam tag)),
    ("LANE_STATUS", plain (.laneStatus tag)),
    ("WEIGH_RESTART", plain (.weighRestart tag)),
    ("WEIGH_ZERO", plain (.weighZero tag)),
    ("WEIGH_TARE", plain (.weighTare tag)),
    ("WEIGH_PRESET_TARE", oneNat 2 (.weighPresetTare tag)),
    ("WEIGH_CLEAR_TARE", plain (.weighClearTare tag)),
    ("WEIGH_CAPTURE", oneNat 4 (.weighCapture tag)),
    ("WEIGH_CANCEL", plain (.weighCancel tag)),
    ("WEIGH_TEST", readWeighTest tag),
    ("WEIGH_READ", plain (.weighRead tag)) ] ++
  [ ("CAL_ENTER", plain (.calEnter tag)),
    ("CAL_LEAVE", plain (.calLeave tag)),
    ("CAL_ZERO", plain (.calZero tag)),
    ("CAL_SPAN", oneNat 2 (.calSpan tag)),
    ("CAL_RANGES", (readNat 2).andThen fun m1 => (readNat 1).andThen fun e1 => (readNat 2).andThen fun m =>
      (readNat 1).andThen fun e2 => .pure (.request (.calRanges tag m1 e1 m e2))),
    ("CAL_COMMIT", plain (.calCommit tag)),
    ("STORE_READ", plain (.storeRead tag)) ] ++
  [ ("SALE_OPEN", plain (.saleOpen tag)),
    ("ITEM_ADD", (readNat 4).andThen fun p => (readNat 2).andThen fun q => .pure (.request (.itemAdd tag p q))),
    ("ITEM_TEXT", readText.andThen fun t => readInt.andThen fun a => .pure (.request (.itemText tag t a))),
    ("LINE_VOID", oneNat 1 (.lineVoid tag)),
    ("REFERRAL_ANSWER", readReferralAnswer tag),
    ("TENDER_CASH", oneNat 4 (.tenderCash tag)),
    ("TENDER_CARD", (readNat 4).andThen fun a => (readNat 2).andThen fun n => .pure (.request (.tenderCard tag a n))),
    ("CARD_APPROVE", oneText (.cardApprove tag)),
    ("CARD_DECLINE", plain (.cardDecline tag)),
    ("SALE_SUSPEND", plain (.saleSuspend tag)),
    ("SALE_RESUME", plain (.saleResume tag)),
    ("SALE_ABORT", plain (.saleAbort tag)),
    ("NO_SALE", plain (.noSale tag)),
    ("SALE_READ", plain (.saleRead tag)),
    ("LINE_READ", (readNat 1).andThen fun p => (readNat 1).andThen fun n => .pure (.request (.lineRead tag (salePlace p) n))) ] ++
  [ ("CARD_READ", plain (.cardRead tag)),
    ("CARD_RELEASE", oneNat 2 (.cardRelease tag)),
    ("TILL_CLEAR", plain (.tillClear tag)),
    ("TILL_READ", plain (.tillRead tag)),
    ("PRINT_RESUME", plain (.printResume tag)),
    ("PRINT_DISCARD", plain (.printDiscard tag)),
    ("PRINT_TEXT", readText.andThen fun t => readFlag.andThen fun d => readFlag.andThen fun c =>
      .pure (.request (.printText tag t d c))),
    ("PRINT_FEED", oneNat 1 (.printFeed tag)),
    ("PRINT_CUT", plain (.printCut tag)),
    ("PRINT_READ", plain (.printRead tag)),
    ("BUDGET_READ", plain (.budgetRead tag)),
    ("ACCESSORY_READ", plain (.accessoryRead tag)) ] ++
  [ ("TABLE_BEGIN", oneText (.tableBegin tag)),
    ("TABLE_RECORD", fun bs => some (.request (.tableRecord tag bs), [])),
    ("TABLE_END", oneNat 2 (.tableEnd tag)),
    ("TABLE_CANCEL", oneText (.tableCancel tag)),
    ("TABLE_READ", readText.andThen fun t => (readNat 4).andThen fun n => .pure (.request (.tableRead tag t n))),
    ("TABLE_STATUS", plain (.tableStatus tag)) ]

/-- A request's payload read: its name up to the byte 0x00, then its fields (R190, R193). A payload without that byte holds no
name and is UNKNOWN (log 61). -/
def parsePayload (tag : Byte) (payload : List Byte) : Parsed :=
  let name := payload.takeWhile (· != 0)
  if payload.length = name.length then .unknown
  else
    match (requestTable tag).find? (fun r => ascii r.1 == name) with
    | some r => whole r.2 (payload.drop (name.length + 1))
    | none => .unknown

/-- A request as it waits in the request queue: the command its payload spells, or `unknownRequest` (R193). -/
def parseRequest (tag : Byte) (payload : List Byte) : Instr :=
  match parsePayload tag payload with
  | .request i => i
  | .unknown => .unknownRequest tag payload
  | .badSize => .unknownRequest tag payload
  | .badSelector => .unknownRequest tag payload

/-- The command that a word spells by the bits of spec/opcode_table.json: no row gives bits, so none. -/
def decodeTableWord (_nbits _w : Nat) : Option Instr := none

end Sys2Proof
end

