-- ==== Sys2Proof/Machine/State.lean ====
section
/-! DEFINITION. The state of the block: one structure per block of 00_scope.md, and the whole State; plain data. -/

namespace Sys2Proof.Machine

open Sys2Proof

/-! ## Reasons a step can stop -/

/-- No command of this model faults: every error the spec describes is a response, a flag or a state (INVENTORY.md, Faults). -/
inductive Fault where
  deriving DecidableEq, Repr

/-- Why a command has no meaning. -/
inductive Refusal where
  /-- Raised by an arm of `exec` whose command has no meaning yet: safe, since nothing is claimed of it. -/
  | notModelled (mnemonic : String)
  deriving DecidableEq, Repr

/-! ## The lane link (chapter 11) -/

/-- The reason codes of R190. -/
inductive Reason where
  | state | busy | limit | range | length | unknown | tooLate | busyLink
  | sealed | notWeighed | notEach | noCard | drawerOpen | notFound | duplicate | count
  deriving DecidableEq, Repr

/-- The outcome of a response (00_scope.md, Requests and responses). -/
inductive Verdict where
  | ok
  | accepted
  | refused (r : Reason)
  deriving DecidableEq, Repr

/-- One encoded field of a response or a notice (R190); optional fields, lists and alternatives are sequences of these. -/
inductive Field where
  /-- Big-endian two's complement, of the given number of bytes. -/
  | int (bytes : Nat) (v : Int)
  | enum (code : Nat)
  | flag (b : Bool)
  /-- A text or a name: a count byte and the bytes. -/
  | text (t : List Byte)
  deriving DecidableEq, Repr

/-- A response in the response part (R193, R194). -/
structure Response where
  tag     : Byte
  verdict : Verdict
  fields  : List Field
  /-- Set on the response of CONTROLLER_RESET, whose sending lets the link reset take effect (R188). -/
  ofReset : Bool
  deriving DecidableEq, Repr

/-- An ACC_UP frame in the accessory part (R194). -/
structure AccFrame where
  unit    : Nat
  tag     : Byte
  payload : List Byte
  deriving DecidableEq, Repr

/-- The cause of the latest reset (R188). -/
inductive ResetCause where
  | power | pin | link
  deriving DecidableEq, Repr

/-- The lane state (R189). -/
inductive LaneState where
  | unconfigured | ready
  deriving DecidableEq, Repr

/-- The phases of the receive assembler (R191). -/
inductive RxPhase where
  | hunt | length | body | check
  deriving DecidableEq, Repr

/-- Whether CONTROLLER_RESET has been taken, and whether its response has been sent (R188). -/
inductive ResetAnswer where
  | none | waiting | sent
  deriving DecidableEq, Repr

/-! ## The weighing channel (chapter 1) -/

/-- The channel states of section 1.3. -/
inductive ChannelState where
  | starting | zeroPending | running | test | cal | fault
  deriving DecidableEq, Repr

/-- The fault causes of R7. -/
inductive FaultCause where
  | converter | store | record
  deriving DecidableEq, Repr

/-- The causes of a restart (R6). -/
inductive RestartCause where
  | reset | weighRestart | testOn | testOff | calEnter | calLeave
  deriving DecidableEq, Repr

/-- The tare record: its kind and, but for NONE, its value T in fine units (section 1.6). -/
inductive Tare where
  | none
  | weighed (t : Nat)
  | preset (t : Nat)
  | item (t : Nat)
  deriving DecidableEq, Repr

/-- The basis of a unit price (section 2.5). -/
inductive Basis where
  | perKg | per100g | each
  deriving DecidableEq, Repr

/-- An entry of the item table (R174). -/
structure ItemEntry where
  plu        : Nat
  text       : List Byte
  basis      : Basis
  unitPrice  : Nat
  presetTare : Option Nat
  refer      : Bool
  deriving DecidableEq, Repr

/-- The figures of a filtered update at which the calibration record is valid (R27, R30 to R33). -/
structure Figures where
  gross     : Int
  tare      : Tare
  net       : Int
  certified : Int
  interval  : Nat
  deriving DecidableEq, Repr

/-- A filtered update (R3): F, the out-of-range conditions of R1 and the figures formed. -/
structure Update where
  f       : Int
  oorHigh : Bool
  oorLow  : Bool
  figures : Option Figures
  deriving DecidableEq, Repr

/-- The bits that a filtered update alone sets (R26); all clear while the channel has no indication. -/
structure Indication where
  stable    : Bool
  motion    : Bool
  centre    : Bool
  overload  : Bool
  underload : Bool
  deriving DecidableEq, Repr

/-- The disturbance window (R18): closed, or open with its closing time once the pulse has ended. -/
inductive Window where
  | closed
  | opened (closing : Option Nat)
  deriving DecidableEq, Repr

/-- The source of a capture (section 1.8); a request keeps its tag. -/
inductive CaptureSource where
  | request (tag : Byte)
  | scan
  deriving DecidableEq, Repr

/-- A WAITING capture slot (section 1.8). -/
structure Capture where
  plu        : Nat
  source     : CaptureSource
  item       : Option ItemEntry
  generation : Nat
  due        : Nat
  deriving DecidableEq, Repr

/-- The results that CAPTURE reports (R21, R22). -/
inductive CaptureResult where
  | ok | referred | limit | timeout | cancelled | fault | abandoned
  deriving DecidableEq, Repr

/-- The calibration record (section 2.1, R53). -/
structure CalRecord where
  zc   : Int
  sc   : Int
  mcal : Nat
  max1 : Nat
  e1   : Nat
  max  : Nat
  e2   : Nat
  deriving DecidableEq, Repr

/-- The averaged step in progress (R45): ZERO, or SPAN with its mass. -/
inductive CalStep where
  | zero
  | span (mcal : Nat)
  deriving DecidableEq, Repr

/-- A step in progress with its phase, sum, count and timer (R45, R48). -/
structure CalRun where
  step      : CalStep
  averaging : Bool
  sum       : Int
  count     : Nat
  due       : Nat
  deriving DecidableEq, Repr

/-- Candidate ranges (R50). -/
structure Ranges where
  max1 : Nat
  e1   : Nat
  max  : Nat
  e2   : Nat
  deriving DecidableEq, Repr

/-- The calibration context (R45). -/
structure CalContext where
  run          : Option CalRun
  zero         : Option Int
  span         : Option (Int × Nat)
  ranges       : Option Ranges
  pendingLeave : Bool
  deriving DecidableEq, Repr

/-- The steps that CAL reports (R44, R48 to R52). -/
inductive CalStepName where
  | zero | span | leave | ranges | commit
  deriving DecidableEq, Repr

/-- The results that CAL reports (R44, R47 to R52). -/
inductive CalResult where
  | ok | aborted | spanLow | timeout | writeTimeout
  deriving DecidableEq, Repr

/-- The weighing channel. -/
structure Wch where
  state           : ChannelState
  faultCause      : Option FaultCause
  ring            : List Int
  count           : Nat
  refill          : Option RestartCause
  watch           : Option Nat
  sampleDue       : Nat
  last            : Option Update
  zo              : Int
  zi              : Option Int
  stabRef         : Option Int
  stabCount       : Nat
  ind             : Indication
  zeroLimit       : Bool
  zeroOut         : Bool
  trackDue        : Option Nat
  tare            : Tare
  window          : Window
  capture         : Option Capture
  interlock       : Bool
  lateCancel      : Bool
  testOffset      : Option Int
  calSwitchClosed : Bool
  cal             : Option CalContext
  deriving DecidableEq, Repr

/-! ## The sealed store (section 3.3) -/

/-- The figures of the sealed store but for its integrity word (R53). -/
structure SealedFigures where
  record     : CalRecord
  calCounter : Nat
  saleCounter : Nat
  grandTotal : Nat
  deriving DecidableEq, Repr

/-- The states of the store (R53). -/
inductive StoreState where
  | intact | damaged | fault
  deriving DecidableEq, Repr

/-- What a sealed write carries, by its kind (R55). -/
inductive WriteData where
  | calibration (record : CalRecord) (calCounter : Nat)
  | totals (saleCounter grandTotal : Nat)
  | whole (figures : SealedFigures)
  deriving DecidableEq, Repr

/-- A write in flight with its 50 ms timer (R55). -/
structure Write where
  data : WriteData
  due  : Nat
  deriving DecidableEq, Repr

/-- The sealed store. -/
structure Sst where
  array         : SealedFigures
  word          : BitVec 16
  image         : SealedFigures
  state         : StoreState
  inFlight      : Option Write
  pendingTotals : Bool
  deriving DecidableEq, Repr

/-! ## The sale (chapter 4) -/

/-- The states of a sale (section 4.2). -/
inductive SaleState where
  | opened | tendering | authWait | settled | aborted | closing | suspended
  deriving DecidableEq, Repr

/-- The kinds of a closing sale (R58). -/
inductive ClosingKind where
  | settled | suspended | aborted
  deriving DecidableEq, Repr

/-- The kinds of a sale line (R62). -/
inductive LineKind where
  | item | weighed | embedded | text | void | cash | card
  deriving DecidableEq, Repr

/-- The states of a sale line (R63). -/
inductive LineState where
  | referred | posted | voided
  deriving DecidableEq, Repr

/-- The print states of a sale line (R62). -/
inductive PrintState where
  | notQueued | queued | printed
  deriving DecidableEq, Repr

/-- The mass record of a WEIGHED line (R62). -/
structure MassRecord where
  gross      : Int
  tare       : Tare
  certified  : Int
  interval   : Nat
  generation : Nat
  deriving DecidableEq, Repr

/-- The card part of a CARD line (R62). -/
structure CardPart where
  masked   : List Byte
  approval : List Byte
  serial   : Nat
  deriving DecidableEq, Repr

/-- A line of a sale (R62). -/
structure Line where
  number    : Nat
  kind      : LineKind
  state     : LineState
  plu       : Option Nat
  text      : List Byte
  quantity  : Option Nat
  mass      : Option MassRecord
  unitPrice : Option Nat
  basis     : Option Basis
  amount    : Int
  voided    : Option Nat
  card      : Option CardPart
  print     : PrintState
  deriving DecidableEq, Repr

/-- The reasons of a referral (R73). -/
inductive ReferralReason where
  | missing | refer | priceLimit
  deriving DecidableEq, Repr

/-- An entry of the referral list (R73). -/
structure Referral where
  line   : Nat
  reason : ReferralReason
  due    : Nat
  deriving DecidableEq, Repr

/-- The pending card tender (R77). -/
structure CardTender where
  amount : Nat
  serial : Nat
  due    : Nat
  deriving DecidableEq, Repr

/-- The sale record (section 4.2); its totals are derived (R64). -/
structure Sale where
  tag         : Nat
  state       : SaleState
  closingKind : Option ClosingKind
  resumed     : Bool
  lines       : List Line
  referrals   : List Referral
  cardTender  : Option CardTender
  changeDue   : Int
  itemGen     : Nat
  nextToQueue : Nat
  incomplete  : Bool
  saleNumber  : Option Nat
  deriving DecidableEq, Repr

/-- The sale record unit (R58). The stack stands top first; its reservation is the closing slot in CLOSING/SUSPENDED. -/
structure Sru where
  openSlot   : Option Sale
  closing    : Option Sale
  stack      : List Sale
  nextTag    : Nat
  lateAnswer : Bool
  deriving DecidableEq, Repr

/-- The sale states that SALE reports: the sale's own, and RELEASED (R60, R61). -/
inductive SaleNews where
  | live (s : SaleState)
  | released
  deriving DecidableEq, Repr

/-! ## The stripe decoder (chapter 5) -/

/-- The states of a track decoder (section 5.1). -/
inductive DecoderState where
  | idle | leadin | bits | done
  deriving DecidableEq, Repr

/-- The errors of the bit stage (section 5.1). -/
inductive BitStatus where
  | speed | badBits | overlength
  deriving DecidableEq, Repr

/-- A track decoder (section 5.1); `cell` is C, `none` until the lead-in has formed it. -/
structure Decoder where
  state     : DecoderState
  cell      : Option Nat
  intervals : Nat
  leadSum   : Nat
  lastTime  : Option Nat
  half      : Option Nat
  buffer    : List Bool
  status    : Option BitStatus
  deriving DecidableEq, Repr

/-- An entry of the card format table (section 5.2). -/
structure FormatEntry where
  track     : Track
  width     : Nat
  start     : Nat
  stop      : Nat
  separator : Nat
  maxChars  : Nat
  deriving DecidableEq, Repr

/-- The swipe context (R89, R93). -/
structure Swipe where
  formatA    : Option FormatEntry
  formatB    : Option FormatEntry
  generation : Nat
  ends       : Nat
  deriving DecidableEq, Repr

/-- The final statuses of a track, in the order of R97's table. -/
inductive TrackStatus where
  | speed | badBits | overlength | noData | noStart
  | parity (index : Nat)
  | noEnd | lrc | ok
  deriving DecidableEq, Repr

/-- The direction of a start found (R95). -/
inductive Direction where
  | forward | reverse
  deriving DecidableEq, Repr

/-- The outcome of one track; characters stand as their text bytes (R94, R97). -/
structure TrackOutcome where
  status    : TrackStatus
  direction : Option Direction
  chars     : List Byte
  deriving DecidableEq, Repr

/-- The card record (section 5.3); the account stands as its text bytes. -/
structure CardRecord where
  serial     : Nat
  generation : Nat
  trackA     : TrackOutcome
  trackB     : TrackOutcome
  account    : Option (List Byte)
  deriving DecidableEq, Repr

/-- The card record slot (section 5.3); a HELD record has its expiry timer. -/
inductive CardSlot where
  | empty
  | held (r : CardRecord) (due : Nat)
  | bound (r : CardRecord)
  deriving DecidableEq, Repr

/-- The reasons of CARD_CLEARED (R99, R100). -/
inductive ClearReason where
  | expired | refused
  deriving DecidableEq, Repr

/-- The stripe decoder. -/
structure Sdc where
  trackA  : Decoder
  trackB  : Decoder
  swipe   : Option Swipe
  slot    : CardSlot
  counter : Nat
  deriving DecidableEq, Repr

/-! ## The till (chapter 6) -/

/-- An authorization (R108); NO_SALE has no tag. -/
inductive Auth where
  | settledCash (tag : Nat)
  | abortCash (tag : Nat)
  | noSale
  deriving DecidableEq, Repr

/-- The drawer states of section 6.3 with the timer of each, and the unauthorized flag of OPEN and OVERDUE. -/
inductive DrawerState where
  | closed
  | waitGrant
  | pulsing (due : Nat)
  | confirming (due : Nat)
  | opened (unauthorized : Bool) (due : Nat)
  | overdue (unauthorized : Bool)
  | jammed
  deriving DecidableEq, Repr

/-- What TLC answers to an issue (R108). -/
inductive IssueOutcome where
  | taken | merged | satisfied
  deriving DecidableEq, Repr

/-- The till controller. -/
structure Tlc where
  switchOpen : Bool
  auth       : Option Auth
  retries    : Nat
  state      : DrawerState
  deriving DecidableEq, Repr

/-! ## Receipt printing (chapter 7) -/

/-- The sources of a print line (R122). -/
inductive PrintSource where
  | sale | saleExtra | header | trailer | note | text
  deriving DecidableEq, Repr

/-- A print line (R122); its text has 32 bytes. -/
structure PrintLine where
  source   : PrintSource
  saleTag  : Option Nat
  line     : Option Nat
  text     : List Byte
  double   : Bool
  cutAfter : Bool
  rowsDone : Nat
  deriving DecidableEq, Repr

/-- An entry of the print queue (R122). -/
inductive QueueEntry where
  | line (p : PrintLine)
  | feed (rows : Nat)
  | cut
  deriving DecidableEq, Repr

/-- A strobe phase: its blocks and its dot sum (R131). -/
structure Phase where
  blocks : List Nat
  dots   : Nat
  deriving DecidableEq, Repr

/-- Where a glyph row stands: its phase waits for a grant, its phase strobes, or its paper step runs (R132). -/
inductive RowStage where
  | waiting (p : Phase)
  | strobing (p : Phase) (due : Nat)
  | stepping (due : Nat)
  deriving DecidableEq, Repr

/-- The halt reasons of R135. -/
inductive HaltReason where
  | paperOut | coverOpen | cutter | supply
  deriving DecidableEq, Repr

/-- The printer states of R135 with the work in progress of each. -/
inductive PrinterState where
  | idle
  | printing (rest : List Phase) (stage : RowStage)
  | feeding (due : Nat)
  /-- A cutter cycle with its timer, and whether the home switch has shown AWAY since its start (R134). -/
  | cutting (due : Nat) (away : Bool)
  | hotWait
  | halted (r : HaltReason)
  deriving DecidableEq, Repr

/-- The composer's context (R123). -/
structure Composer where
  sale   : Option Nat
  header : Bool
  tail   : Bool
  deriving DecidableEq, Repr

/-- The print engine. -/
structure Pen where
  nearEnd    : Bool
  paperOut   : Bool
  coverOpen  : Bool
  headHot    : Bool
  home       : Bool
  queue      : List QueueEntry
  state      : PrinterState
  paperMark  : Bool
  coverMark  : Bool
  feed       : Nat
  sinceGlyph : Nat
  /-- The cut owed, with its sale tag or none (R133). -/
  owed       : Option (Option Nat)
  context    : Composer
  deriving DecidableEq, Repr

/-! ## The pulse budget (chapter 8) -/

/-- The kinds of a grant (R146). -/
inductive GrantKind where
  | solenoid | phase
  deriving DecidableEq, Repr

/-- An entry of the grant list (R146). -/
structure Grant where
  kind  : GrantKind
  start : Nat
  cost  : Nat
  deriving DecidableEq, Repr

/-- A waiting phase request (R149). -/
structure PhaseReq where
  first : Bool
  cost  : Nat
  since : Nat
  deriving DecidableEq, Repr

/-- The print line whose row holds the arbiter (R155). -/
structure RowOwner where
  saleTag : Option Nat
  line    : Option Nat
  deriving DecidableEq, Repr

/-- The pulse budget unit. -/
structure Pbu where
  grants      : List Grant
  pulse       : Option Nat
  strobe      : Bool
  arbiter     : Option RowOwner
  solenoidReq : Option Nat
  phaseReq    : Option PhaseReq
  warning     : Bool
  deriving DecidableEq, Repr

/-! ## The accessory port (chapter 9) -/

/-- The roles of a unit (R158). -/
inductive Role where
  | none | scanner | display | other
  deriving DecidableEq, Repr

/-- The presence states (R160). -/
inductive Presence where
  | unknown | present | absent
  deriving DecidableEq, Repr

/-- What ACP keeps for one unit (R158, R160). -/
structure AccUnit where
  role     : Role
  presence : Presence
  misses   : Nat
  deriving DecidableEq, Repr

/-- The four units. -/
structure Units where
  u1 : AccUnit
  u2 : AccUnit
  u3 : AccUnit
  u4 : AccUnit
  deriving DecidableEq, Repr

/-- An ACC_DOWN frame of the downstream queue (R161), or the frame of a visit; `mirror` marks a mirror frame (R170). -/
structure DownFrame where
  unit    : Nat
  tag     : Byte
  payload : List Byte
  mirror  : Bool
  deriving DecidableEq, Repr

/-- A held read (R167). -/
structure HeldScan where
  frame : AccFrame
  plu   : Nat
  deriving DecidableEq, Repr

/-- The causes of ACCESSORY (R171). -/
inductive AccCause where
  | presence | discard | block | heldDiscarded | scanConsumed
  deriving DecidableEq, Repr

/-- Why a read is blocked (R165). -/
inductive BlockReason where
  | table | check
  deriving DecidableEq, Repr

/-- The accessory port; `later` holds the units that are visited again only from the next round (R158, R167). -/
structure Acp where
  units    : Units
  queue    : List DownFrame
  visit    : Option DownFrame
  roundDue : Nat
  held     : Option HeldScan
  mirrorDue : Option Nat
  lastSent : Bool
  blocked  : Nat
  later    : List Nat
  deriving DecidableEq, Repr

/-! ## Loaded tables (chapter 10) -/

/-- The actions of a code entry (section 9.5). -/
inductive CodeAction where
  | forward | weigh | embedded | block
  deriving DecidableEq, Repr

/-- An entry of the code table (section 9.5); the lead is its prefix of digits, a field is start and length. -/
structure CodeEntry where
  lead   : List Byte
  total  : Nat
  check  : Bool
  action : CodeAction
  plu    : Option (Nat × Nat)
  price  : Option (Nat × Nat)
  deriving DecidableEq, Repr

/-- An entry of the font table: a code and 24 rows of 12 dots, bit k of a row being its dot k from the left (R176). -/
structure GlyphEntry where
  code : Nat
  rows : List (BitVec 12)
  deriving DecidableEq, Repr

/-- An entry of the header/trailer table (R176). -/
structure HeaderEntry where
  trailer  : Bool
  position : Nat
  text     : List Byte
  double   : Bool
  deriving DecidableEq, Repr

/-- The states of a load bank (R173). -/
inductive LoadState where
  | empty | loading | pending
  deriving DecidableEq, Repr

/-- The result of a table's last session or swap (R185). -/
inductive TableResult where
  | swapped
  | invalid (reason : Reason) (position : Nat)
  | count
  | idle
  | cancelled
  deriving DecidableEq, Repr

/-- The banks of one table (R173); `load` stands in arrival order. -/
structure TableBank (α : Type) where
  active     : List α
  load       : List α
  loadState  : LoadState
  generation : Nat
  last       : Option TableResult
  deriving DecidableEq, Repr

/-- The five tables (section 10.1). -/
inductive TableName where
  | item | code | font | cardFormat | headerTrailer
  deriving DecidableEq, Repr

/-- The load session (R177). -/
structure Session where
  table : TableName
  count : Nat
  due   : Nat
  deriving DecidableEq, Repr

/-- The table store. -/
structure Tbs where
  item          : TableBank ItemEntry
  code          : TableBank CodeEntry
  font          : TableBank GlyphEntry
  cardFormat    : TableBank FormatEntry
  headerTrailer : TableBank HeaderEntry
  session       : Option Session
  deriving DecidableEq, Repr

/-! ## Notices (R195) -/

/-- The bits of R26 in the order of its table. -/
structure WeightBits where
  stable     : Bool
  motion     : Bool
  centre     : Bool
  zeroLimit  : Bool
  zeroOut    : Bool
  overload   : Bool
  underload  : Bool
  tareActive : Bool
  disturbed  : Bool
  interlock  : Bool
  deriving DecidableEq, Repr

/-- A raised notice: its kind and the detail its rule gives (R190, R195). -/
inductive Notice where
  | startup (cause : ResetCause)
  | weight (state : ChannelState) (bits : WeightBits)
  | capture (source : CaptureSource) (result : CaptureResult) (line : Option Nat)
  | cal (step : CalStepName) (result : CalResult)
  | card (serial : Nat) (trackA trackB : TrackStatus)
  | cardCleared (reason : ClearReason)
  | referral (lines : List Nat)
  | auth (timeout : Bool)
  | sale (tag : Nat) (state : SaleNews) (incomplete : Bool)
  | supply (on : Bool)
  | drawer (state : DrawerState) (unauthorized : Bool) (auth : Option Auth)
  | printer (state : PrinterState) (nearEnd : Bool)
  | table (name : TableName) (generation : Nat) (result : TableResult)
  | accessory (cause : AccCause) (unit : Nat) (presence : Presence) (reason : Option BlockReason) (line : Option Nat)
      (blocked : Nat)
  | store (state : StoreState)
  deriving DecidableEq, Repr

/-- A frame that the transmitter sends (R194). -/
inductive TxFrame where
  | response (r : Response)
  | notice (n : Notice)
  | accUp (f : AccFrame)
  deriving DecidableEq, Repr

/-- The parameters of R197 but for the accessory roles, which are the roles of `Units`. -/
structure Params where
  filterLength      : Nat
  stabilityCount    : Nat
  captureTimeout    : Nat
  disturbanceSettle : Nat
  cardExpiry        : Nat
  authTimeout       : Nat
  referralTimeout   : Nat
  drawerPulse       : Nat
  drawerConfirm     : Nat
  drawerOverdue     : Nat
  closeBeforeSale   : Bool
  printDensity      : Nat
  linePitch         : Nat
  amountDecimals    : Nat
  maskLeadDigits    : Nat
  displayMirror     : Bool
  deriving DecidableEq, Repr

/-- The lane link interface. The notices pending stand in ascending kind number, at most one of a kind (R195). -/
structure Lli where
  phase       : RxPhase
  rxLength    : Nat
  rxBody      : List Byte
  rxCheck     : List Byte
  requests    : List Instr
  responses   : List Response
  accUps      : List AccFrame
  sending     : Option TxFrame
  notices     : List Notice
  mask        : Vector Bool 15
  linkError   : Bool
  lane        : LaneState
  resetCause  : ResetCause
  startupDue  : Option Nat
  resetAnswer : ResetAnswer
  pinReset    : Bool
  params      : Params
  deriving DecidableEq, Repr

/-! ## The whole state -/

/-- The state of the block. `clock` (microseconds), `free` (free values taken), `pins` and `pending` are the model's own. -/
structure State where
  clock   : Nat
  free    : Nat
  pins    : Pins
  lli     : Lli
  wch     : Wch
  sst     : Sst
  sru     : Sru
  sdc     : Sdc
  tlc     : Tlc
  pen     : Pen
  pbu     : Pbu
  acp     : Acp
  tbs     : Tbs
  pending : List Instr
  deriving DecidableEq, Repr

/-- The defaults of R197. -/
def Params.defaults : Params where
  filterLength      := 16
  stabilityCount    := 80
  captureTimeout    := 3000
  disturbanceSettle := 100
  cardExpiry        := 60
  authTimeout       := 90
  referralTimeout   := 120
  drawerPulse       := 50
  drawerConfirm     := 500
  drawerOverdue     := 30
  closeBeforeSale   := true
  printDensity      := 128
  linePitch         := 28
  amountDecimals    := 2
  maskLeadDigits    := 0
  displayMirror     := true

/-- DESIGN CHOICE (log 7): the input levels of `State.reset`: drawer in, paper in, cover shut, head cool, cutter home, no
supply warning. -/
def Pins.quiet : Pins where
  drawerOpen    := false
  nearEnd       := false
  paperOut      := false
  coverOpen     := false
  headHot       := false
  cutterHome    := true
  supplyWarning := false

/-- The figures with which a part leaves manufacture (R53). -/
def SealedFigures.manufactured : SealedFigures where
  record      := ⟨0, 0, 0, 0, 0, 0, 0⟩
  calCounter  := 0
  saleCounter := 0
  grandTotal  := 0

/-- The integrity word of those figures (R53); the tests compute it. -/
def SealedFigures.manufacturedWord : BitVec 16 := 0x2a45

/-- The lane link after a reset (R188, R189), the STARTUP notice being sent (R194). -/
def Lli.afterReset (cause : ResetCause) (clock : Nat) (sending : Option TxFrame) (notices : List Notice) : Lli where
  phase       := .hunt
  rxLength    := 0
  rxBody      := []
  rxCheck     := []
  requests    := []
  responses   := []
  accUps      := []
  sending     := sending
  notices     := notices
  mask        := Vector.replicate 15 true
  linkError   := false
  lane        := .unconfigured
  resetCause  := cause
  startupDue  := some (clock + 1000000)
  resetAnswer := .none
  pinReset    := false
  params      := Params.defaults

/-- The weighing channel after a reset (R28). -/
def Wch.afterReset (clock : Nat) : Wch where
  state           := .starting
  faultCause      := none
  ring            := []
  count           := 0
  refill          := some .reset
  watch           := some (clock + 12500)
  sampleDue       := clock + 2500
  last            := none
  zo              := 0
  zi              := none
  stabRef         := none
  stabCount       := 0
  ind             := ⟨false, false, false, false, false⟩
  zeroLimit       := false
  zeroOut         := false
  trackDue        := none
  tare            := .none
  window          := .closed
  capture         := none
  interlock       := false
  lateCancel      := false
  testOffset      := none
  calSwitchClosed := false
  cal             := none

/-- The sale record unit after a reset (R88). -/
def Sru.afterReset (nextTag : Nat) : Sru where
  openSlot   := none
  closing    := none
  stack      := []
  nextTag    := nextTag
  lateAnswer := false

/-- A decoder at rest (R106). -/
def Decoder.idle : Decoder where
  state     := .idle
  cell      := none
  intervals := 0
  leadSum   := 0
  lastTime  := none
  half      := none
  buffer    := []
  status    := none

/-- The stripe decoder after a reset (R106). -/
def Sdc.afterReset (counter : Nat) : Sdc where
  trackA  := Decoder.idle
  trackB  := Decoder.idle
  swipe   := none
  slot    := .empty
  counter := counter

/-- The till controller after a reset (R119): OPEN with the default overdue timer when the switch is open. -/
def Tlc.afterReset (clock : Nat) (pins : Pins) : Tlc where
  switchOpen := pins.drawerOpen
  auth       := none
  retries    := 0
  state      := if pins.drawerOpen then .opened false (clock + 30000000) else .closed

/-- The printer state after a reset (R145, then R137 and R138 from IDLE). -/
def PrinterState.afterReset (pins : Pins) : PrinterState :=
  if !pins.cutterHome then .halted .cutter
  else if pins.coverOpen then .halted .coverOpen
  else if pins.paperOut then .halted .paperOut
  else if pins.supplyWarning then .halted .supply
  else .idle

/-- The print engine after a reset (R145). -/
def Pen.afterReset (pins : Pins) : Pen where
  nearEnd    := pins.nearEnd
  paperOut   := pins.paperOut
  coverOpen  := pins.coverOpen
  headHot    := pins.headHot
  home       := pins.cutterHome
  queue      := []
  state      := PrinterState.afterReset pins
  paperMark  := false
  coverMark  := false
  feed       := 0
  sinceGlyph := 0
  owed       := none
  context    := ⟨none, false, false⟩

/-- The pulse budget unit after a reset (R156). -/
def Pbu.afterReset (pins : Pins) : Pbu where
  grants      := []
  pulse       := none
  strobe      := false
  arbiter     := none
  solenoidReq := none
  phaseReq    := none
  warning     := pins.supplyWarning

/-- The accessory port after a reset (R172): the first round has come to unit 1 with a poll (R157, R159). Units 3 and 4, whose
role is NONE, are UNKNOWN as well (R158, log 53). -/
def Acp.afterReset (clock : Nat) : Acp where
  units     := ⟨⟨.scanner, .unknown, 0⟩, ⟨.display, .unknown, 0⟩, ⟨.none, .unknown, 0⟩, ⟨.none, .unknown, 0⟩⟩
  queue     := []
  visit     := some ⟨1, 0, [], false⟩
  roundDue  := clock + 20000
  held      := none
  mirrorDue := none
  lastSent  := false
  blocked   := 0
  later     := []

/-- A table's banks after a power or pin reset (R187). -/
def TableBank.cleared {α : Type} : TableBank α where
  active     := []
  load       := []
  loadState  := .empty
  generation := 0
  last       := none

/-- The table store after a power or pin reset (R187). -/
def Tbs.cleared : Tbs where
  item          := TableBank.cleared
  code          := TableBank.cleared
  font          := TableBank.cleared
  cardFormat    := TableBank.cleared
  headerTrailer := TableBank.cleared
  session       := none

/-- The machine right after the power reset of a part fresh from manufacture, its inputs quiet (R53, R188; log 7). -/
def State.reset : State where
  clock   := 0
  free    := 0
  pins    := Pins.quiet
  lli     := Lli.afterReset .power 0 (some (.notice (.startup .power))) []
  wch     := Wch.afterReset 0
  sst     := ⟨SealedFigures.manufactured, SealedFigures.manufacturedWord, SealedFigures.manufactured, .intact, none, false⟩
  sru     := Sru.afterReset 1
  sdc     := Sdc.afterReset 0
  tlc     := Tlc.afterReset 0 Pins.quiet
  pen     := Pen.afterReset Pins.quiet
  pbu     := Pbu.afterReset Pins.quiet
  acp     := Acp.afterReset 0
  tbs     := Tbs.cleared
  pending := []

end Sys2Proof.Machine
end

