-- ==== Sys2Proof/Machine/Wire.lean ====
section
/-! DEFINITION. How enumerated values are numbered and fields, responses and notices are encoded on the lane link (R190).
Numberings that no single list of the spec gives are DEDUCED (log 17). -/

namespace Sys2Proof.Machine

open Sys2Proof

/-! ## Enumerated values, numbered from 0 in the order of the list that names them (R190) -/

def Reason.code : Reason → Nat
  | .state => 1 | .busy => 2 | .limit => 3 | .range => 4 | .length => 5 | .unknown => 6 | .tooLate => 7 | .busyLink => 8
  | .sealed => 9 | .notWeighed => 10 | .notEach => 11 | .noCard => 12 | .drawerOpen => 13 | .notFound => 14
  | .duplicate => 15 | .count => 16

/-- The reason whose byte in R190's table is `n + 1`, taken modulo the sixteen. -/
def Reason.pick (n : Nat) : Reason :=
  match n % 16 with
  | 0 => .state | 1 => .busy | 2 => .limit | 3 => .range | 4 => .length | 5 => .unknown | 6 => .tooLate | 7 => .busyLink
  | 8 => .sealed | 9 => .notWeighed | 10 => .notEach | 11 => .noCard | 12 => .drawerOpen | 13 => .notFound
  | 14 => .duplicate | _ => .count

def ResetCause.code : ResetCause → Nat | .power => 0 | .pin => 1 | .link => 2
def LaneState.code : LaneState → Nat | .unconfigured => 0 | .ready => 1
def ChannelState.code : ChannelState → Nat
  | .starting => 0 | .zeroPending => 1 | .running => 2 | .test => 3 | .cal => 4 | .fault => 5
def FaultCause.code : FaultCause → Nat | .converter => 0 | .store => 1 | .record => 2
def Tare.code : Tare → Nat | .none => 0 | .weighed _ => 1 | .preset _ => 2 | .item _ => 3
def Basis.code : Basis → Nat | .perKg => 0 | .per100g => 1 | .each => 2
def CaptureSource.code : CaptureSource → Nat | .request _ => 0 | .scan => 1
def CaptureResult.code : CaptureResult → Nat
  | .ok => 0 | .referred => 1 | .limit => 2 | .timeout => 3 | .cancelled => 4 | .fault => 5 | .abandoned => 6
def CalStepName.code : CalStepName → Nat | .zero => 1 | .span => 2 | .leave => 3 | .ranges => 4 | .commit => 5
def CalResult.code : CalResult → Nat | .ok => 0 | .aborted => 1 | .spanLow => 2 | .timeout => 3 | .writeTimeout => 4
def StoreState.code : StoreState → Nat | .intact => 0 | .damaged => 1 | .fault => 2
def WriteData.code : WriteData → Nat | .calibration _ _ => 0 | .totals _ _ => 1 | .whole _ => 2
def SaleState.code : SaleState → Nat
  | .opened => 0 | .tendering => 1 | .authWait => 2 | .settled => 3 | .aborted => 4 | .closing => 5 | .suspended => 6
def SaleNews.code : SaleNews → Nat | .live s => s.code | .released => 7
def ClosingKind.code : ClosingKind → Nat | .settled => 0 | .suspended => 1 | .aborted => 2
def LineKind.code : LineKind → Nat
  | .item => 0 | .weighed => 1 | .embedded => 2 | .text => 3 | .void => 4 | .cash => 5 | .card => 6
def LineState.code : LineState → Nat | .referred => 0 | .posted => 1 | .voided => 2
def PrintState.code : PrintState → Nat | .notQueued => 0 | .queued => 1 | .printed => 2
def ReferralReason.code : ReferralReason → Nat | .missing => 0 | .refer => 1 | .priceLimit => 2
def DecoderState.code : DecoderState → Nat | .idle => 0 | .leadin => 1 | .bits => 2 | .done => 3
def TrackStatus.code : TrackStatus → Nat
  | .speed => 0 | .badBits => 1 | .overlength => 2 | .noData => 3 | .noStart => 4 | .parity _ => 5 | .noEnd => 6 | .lrc => 7
  | .ok => 8
def Direction.code : Direction → Nat | .forward => 0 | .reverse => 1
def CardSlot.code : CardSlot → Nat | .empty => 0 | .held _ _ => 1 | .bound _ => 2
def ClearReason.code : ClearReason → Nat | .refused => 0 | .expired => 1
def Auth.code : Auth → Nat | .settledCash _ => 0 | .abortCash _ => 1 | .noSale => 2
def DrawerState.code : DrawerState → Nat
  | .closed => 0 | .waitGrant => 1 | .pulsing _ => 2 | .confirming _ => 3 | .opened _ _ => 4 | .overdue _ => 5 | .jammed => 6
def IssueOutcome.code : IssueOutcome → Nat | .taken => 0 | .merged => 1 | .satisfied => 2
def PrintSource.code : PrintSource → Nat
  | .sale => 0 | .saleExtra => 1 | .header => 2 | .trailer => 3 | .note => 4 | .text => 5
def QueueEntry.code : QueueEntry → Nat | .line _ => 0 | .feed _ => 1 | .cut => 2
def HaltReason.code : HaltReason → Nat | .paperOut => 0 | .coverOpen => 1 | .cutter => 2 | .supply => 3
def PrinterState.code : PrinterState → Nat
  | .idle => 0 | .printing _ _ => 1 | .feeding _ => 2 | .cutting _ _ => 3 | .hotWait => 4 | .halted _ => 5
def GrantKind.code : GrantKind → Nat | .solenoid => 0 | .phase => 1
def Role.code : Role → Nat | .none => 0 | .scanner => 1 | .display => 2 | .other => 3
def Presence.code : Presence → Nat | .unknown => 0 | .present => 1 | .absent => 2
def AccCause.code : AccCause → Nat
  | .presence => 0 | .discard => 1 | .block => 2 | .heldDiscarded => 3 | .scanConsumed => 4
def BlockReason.code : BlockReason → Nat | .table => 0 | .check => 1
def CodeAction.code : CodeAction → Nat | .forward => 0 | .weigh => 1 | .embedded => 2 | .block => 3
def LoadState.code : LoadState → Nat | .empty => 0 | .loading => 1 | .pending => 2
def TableResult.code : TableResult → Nat
  | .swapped => 0 | .invalid _ _ => 1 | .count => 2 | .idle => 3 | .cancelled => 4
def TableName.number : TableName → Nat | .item => 0 | .code => 1 | .font => 2 | .cardFormat => 3 | .headerTrailer => 4
def trackCode : Track → Nat | .a => 0 | .b => 1

/-! ## Fields (R190) -/

/-- An optional field: presence, then the field. -/
def optFields {α : Type} (o : Option α) (f : α → List Field) : List Field :=
  match o with
  | some a => .flag true :: f a
  | none => [.flag false]

/-- A list: a count byte, then its items. -/
def listFields {α : Type} (l : List α) (f : α → List Field) : List Field :=
  .int 1 l.length :: l.flatMap f

/-- A set of bits: an integer of two bytes with bit i the i-th of the list. -/
def bitsField (bs : List Bool) : Field :=
  .int 2 (bs.foldr (fun b n => 2 * n + b.toNat) 0 : Nat)

/-- The bytes of one field. -/
def Field.bytes : Field → List Byte
  | .int n v => intBytes n v
  | .enum c => [BitVec.ofNat 8 c]
  | .flag b => [BitVec.ofNat 8 b.toNat]
  | .text t => BitVec.ofNat 8 t.length :: t

/-! ## Responses and notices (R190) -/

/-- The outcome byte of a response, and the reason byte of a refusal. -/
def Verdict.bytes : Verdict → List Byte
  | .ok => [0]
  | .accepted => [1]
  | .refused r => [2, BitVec.ofNat 8 r.code]

/-- The payload of a response. -/
def Response.payload (r : Response) : List Byte := r.verdict.bytes ++ r.fields.flatMap Field.bytes

/-- The notice kinds numbered as in R190's table. -/
def Notice.kind : Notice → Nat
  | .startup _ => 1 | .weight _ _ => 2 | .capture _ _ _ => 3 | .cal _ _ => 4 | .card _ _ _ => 5 | .cardCleared _ => 6
  | .referral _ => 7 | .auth _ => 8 | .sale _ _ _ => 9 | .supply _ => 10 | .drawer _ _ _ => 11 | .printer _ _ => 12
  | .table _ _ _ => 13 | .accessory _ _ _ _ _ _ => 14 | .store _ => 15

/-- The tag of the sale that an authorization belongs to (R108). -/
def Auth.tag : Auth → Option Nat
  | .settledCash t => some t
  | .abortCash t => some t
  | .noSale => none

/-- The bits of R26 in the order of its table. -/
def WeightBits.toList (b : WeightBits) : List Bool :=
  [b.stable, b.motion, b.centre, b.zeroLimit, b.zeroOut, b.overload, b.underload, b.tareActive, b.disturbed, b.interlock]

/-- The status of a track with the character index of PARITY, which has no presence byte (log 58). -/
def TrackStatus.fields : TrackStatus → List Field
  | .parity i => [.enum 5, .int 4 i]
  | s => [.enum s.code]

/-- A table result with the reason and position of INVALID (R185), which have no presence byte (log 58). -/
def TableResult.fields : TableResult → List Field
  | .invalid r p => [.enum 1, .enum r.code, .int 4 p]
  | r => [.enum r.code]

/-- The tag of a request that started a capture (R21). -/
def CaptureSource.tag? : CaptureSource → Option Byte
  | .request t => some t
  | .scan => none

/-- The printer state and its halt reason (R143), an optional field (log 58). -/
def PrinterState.fields (st : PrinterState) : List Field :=
  [.enum st.code] ++
  (match st with
   | .halted r => [.flag true, .enum r.code]
   | _ => [.flag false])

/-- The detail fields of a notice, in the order its rule names them; the table of TABLE is an enumerated value (log 57), the
supply warning of SUPPLY a flag (log 59). -/
def Notice.fields : Notice → List Field
  | .startup c => [.enum c.code]
  | .weight s b => [.enum s.code, bitsField b.toList]
  | .capture s r l => [.enum s.code] ++ optFields s.tag? (fun t => [.int 1 t.toNat]) ++ [.enum r.code] ++
      optFields l (fun n => [.int 1 n])
  | .cal s r => [.enum s.code, .enum r.code]
  | .card n a b => .int 2 n :: a.fields ++ b.fields
  | .cardCleared r => [.enum r.code]
  | .referral ls => listFields ls fun n => [.int 1 n]
  | .auth t => [.enum (if t then 0 else 1)]
  | .sale t s i => [.int 2 t, .enum s.code, .flag i]
  | .supply on => [.flag on]
  | .drawer s u a => [.enum s.code, .flag u] ++ optFields a (fun a => .enum a.code :: optFields a.tag (fun t => [.int 2 t]))
  | .printer s n => s.fields ++ [.flag n]
  | .table n g r => [.enum n.number, .int 2 g] ++ r.fields
  | .accessory c u p r l n => [.enum c.code, .int 1 u, .enum p.code] ++ optFields r (fun r => [.enum r.code]) ++
      optFields l (fun l => [.int 1 l]) ++ [.int 2 n]
  | .store s => [.enum s.code]

/-- The payload of a notice: its kind and its detail. -/
def Notice.payload (n : Notice) : List Byte := BitVec.ofNat 8 n.kind :: n.fields.flatMap Field.bytes

/-- The bytes of a frame that the transmitter sends (R190): RESPONSE 2, NOTICE 3 with tag 0, ACC_UP 5. -/
def TxFrame.bytes : TxFrame → List Byte
  | .response r => frameBytes 0 2 r.tag r.payload
  | .notice n => frameBytes 0 3 0 n.payload
  | .accUp f => frameBytes f.unit 5 f.tag f.payload

/-- The bytes of a frame that ACP sends to a unit: ACC_DOWN 4 with the frame's tag and payload; a poll has tag 0 and no
payload (R157, R161, R190). -/
def DownFrame.bytes (f : DownFrame) : List Byte := frameBytes f.unit 4 f.tag f.payload

/-- The figures of the sealed store as the bytes of R53, in its order. -/
def SealedFigures.bytes (g : SealedFigures) : List Byte :=
  intBytes 4 g.record.zc ++ intBytes 4 g.record.sc ++ natBytes 2 g.record.mcal ++ natBytes 2 g.record.max1 ++
  natBytes 1 g.record.e1 ++ natBytes 2 g.record.max ++ natBytes 1 g.record.e2 ++ natBytes 2 g.calCounter ++
  natBytes 4 g.saleCounter ++ natBytes 8 g.grandTotal

/-- The integrity word of figures (R53). -/
def integrityWord (g : SealedFigures) : BitVec 16 := crc16 g.bytes

end Sys2Proof.Machine
end

