-- ==== Sys2Proof/Machine/Operands.lean ====
section
/-! DEFINITION. The arithmetic of chapter 2 (mass, interval, certified mass, limits, price), the range constraints of a
calibration record (R50), and the writing of figures (R127). Products and quotients are exact; rounding stands where the
rules say so. -/

namespace Sys2Proof.Machine

open Sys2Proof

/-! ## Rounding (00_scope.md, Rounding) -/

/-- `num / den` rounded half away from zero. -/
def roundHalfAway (num : Int) (den : Nat) : Int :=
  if num < 0 then -(((2 * num.natAbs + den) / (2 * den) : Nat) : Int) else ((2 * num.natAbs + den) / (2 * den) : Nat)

/-- `num / den` rounded half up; prices are never negative. -/
def roundHalfUp (num den : Nat) : Nat := (2 * num + den) / (2 * den)

/-! ## The calibration record -/

/-- The intervals that a range may have (R50). -/
def isInterval (e : Nat) : Bool := e == 1 || e == 2 || e == 5 || e == 10 || e == 20

/-- The range constraints (R50). -/
def rangesValid (max1 e1 max e2 : Nat) : Bool :=
  isInterval e1 && isInterval e2 && decide (0 < max1) && decide (max1 ≤ max) && decide (max ≤ 30000) &&
  max1 % e1 == 0 && max1 % e2 == 0 && max % e2 == 0 && decide (max1 / e1 ≤ 6000) && decide (max / e2 ≤ 6000) &&
  (if max1 = max then e2 == e1 else decide (e1 < e2))

/-- A calibration record is valid (R5): the range constraints hold and its span is at least Mcal × 10 counts. -/
def CalRecord.valid (r : CalRecord) : Bool :=
  rangesValid r.max1 r.e1 r.max r.e2 && decide ((r.mcal : Int) * 10 ≤ r.sc)

/-- Mcal lies between Max / 10 and Max inclusive (R49, R52). -/
def massFits (mcal max : Nat) : Bool := decide (max ≤ 10 * mcal) && decide (mcal ≤ max)

/-- The counts of `num / den` grams (R29). -/
def CalRecord.counts (r : CalRecord) (num : Int) (den : Nat) : Int := roundHalfAway (num * r.sc) (den * r.mcal)

/-- Min in grams (R35). -/
def CalRecord.min (r : CalRecord) : Nat := 20 * r.e1

/-! ## From counts to certified mass -/

/-- The gross mass g in fine units (R30). -/
def CalRecord.gross (r : CalRecord) (zo f : Int) : Int := roundHalfAway ((f - r.zc - zo) * (r.mcal * 10 : Nat)) r.sc.toNat

/-- The interval in use, chosen on the unrounded net (R32). -/
def CalRecord.interval (r : CalRecord) (net : Int) : Nat := if net ≤ (r.max1 * 10 : Nat) then r.e1 else r.e2

/-- The certified mass I in fine units (R33). -/
def certifiedMass (e : Nat) (net : Int) : Int := (10 * e : Nat) * roundHalfAway net (10 * e)

/-- The tare value T, 0 when the kind is NONE (R31). -/
def Tare.value : Tare → Nat
  | .none => 0
  | .weighed t => t
  | .preset t => t
  | .item t => t

/-- The figures of an update (R30 to R33). -/
def CalRecord.figures (r : CalRecord) (zo : Int) (tare : Tare) (f : Int) : Figures where
  gross     := r.gross zo f
  tare      := tare
  net       := r.gross zo f - tare.value
  interval  := r.interval (r.gross zo f - tare.value)
  certified := certifiedMass (r.interval (r.gross zo f - tare.value)) (r.gross zo f - tare.value)

/-- g is above the overload limit (R34). -/
def CalRecord.overload (r : CalRecord) (g : Int) : Bool := decide (((r.max + 9 * r.e2) * 10 : Nat) < g)

/-- g is below the underload limit (R34). -/
def CalRecord.underload (r : CalRecord) (g : Int) : Bool := decide (g < -((20 * r.e1 * 10 : Nat) : Int))

/-- I lies in the capture band, Min to Max grams inclusive (R35). -/
def CalRecord.inBand (r : CalRecord) (certified : Int) : Bool :=
  decide (((r.min * 10 : Nat) : Int) ≤ certified) && decide (certified ≤ (r.max * 10 : Nat))

/-- A tare of `grams` rounded to e1, in grams (R14, R15, R16). -/
def CalRecord.roundTare (r : CalRecord) (grams : Nat) : Nat := r.e1 * roundHalfUp grams r.e1

/-! ## The price rule -/

/-- The divisor of a basis (R36); EACH items do not pass through it. -/
def Basis.divisor : Basis → Nat
  | .perKg => 1000
  | .per100g => 100
  | .each => 1

/-- The price of a certified mass in fine units at unit price `u` (R36). -/
def price (certified : Int) (u : Nat) (b : Basis) : Nat := roundHalfUp ((certified / 10).toNat * u) b.divisor

/-- The greatest line amount (00_scope.md, Amounts). -/
def maxLineAmount : Nat := 99999999

/-- The greatest item total of a sale, and the greatest tender amount (00_scope.md, Amounts). -/
def maxItemTotal : Nat := 999999999

/-- The greatest grand total (R53). -/
def maxGrandTotal : Nat := 999999999999

/-! ## Writing figures (R127) -/

/-- The decimal digits of a number, most significant first; `fuel` is above the number of digits. -/
def digitsGo : Nat → Nat → List Byte → List Byte
  | 0, _, acc => acc
  | fuel + 1, n, acc =>
    if n < 10 then BitVec.ofNat 8 (48 + n) :: acc else digitsGo fuel (n / 10) (BitVec.ofNat 8 (48 + n % 10) :: acc)

/-- A number in decimal without leading zeros. -/
def natText (n : Nat) : List Byte := digitsGo (n + 1) n []

/-- A number with a point before its last `d` digits and at least `d + 1` digits, "-" before a negative one (R127). -/
def decimalText (d : Nat) (v : Int) : List Byte :=
  let ds := natText v.natAbs
  let all := List.replicate (d + 1 - ds.length) 48 ++ ds
  (if v < 0 then [45] else []) ++ all.take (all.length - d) ++
    (if d = 0 then [] else 46 :: all.drop (all.length - d))

/-- A mass in fine units as kilograms with three decimals (R43, R127). -/
def massText (fine : Int) : List Byte := decimalText 3 (fine / 10)

/-- A text filled to 32 bytes with spaces (R122). -/
def fill32 (t : List Byte) : List Byte := t ++ List.replicate (32 - t.length) 32

/-- A text from position 0 and an amount that ends at position 31 (R127). -/
def textAndAmount (t a : List Byte) : List Byte := t ++ List.replicate (32 - t.length - a.length) 32 ++ a

/-! ## Times -/

/-- The whole milliseconds from now to a due time, rounded down (log 16). -/
def msLeft (now due : Nat) : Nat := (due - now) / 1000

end Sys2Proof.Machine
end

