-- ==== Sys2Proof/Machine/Flags.lean ====
section
/-! DEFINITION. The conditions and indication bits of the weighing channel (R10, R26), the record in use (R5, R9, R46),
and the sampled conditions that other blocks test. -/

namespace Sys2Proof.Machine

open Sys2Proof

/-- The calibration record in use, when it is valid; a DAMAGED store's record counts as invalid (R5, R46). -/
def State.record? (s : State) : Option CalRecord :=
  if s.sst.state != .damaged && s.sst.image.record.valid then some s.sst.image.record else none

/-- The disturbance window is open (R18). -/
def Wch.disturbed (w : Wch) : Bool :=
  match w.window with
  | .closed => false
  | .opened _ => true

/-- The channel is stable (R10), by the latest filtered update; a count put back to 0 since (R4) is not stable (log 21). -/
def Wch.stable (w : Wch) : Bool := w.ind.stable && decide (0 < w.stabCount)

/-- The full set of indication bits (R26). -/
def Wch.bits (w : Wch) : WeightBits where
  stable     := w.ind.stable
  motion     := w.ind.motion
  centre     := w.ind.centre
  zeroLimit  := w.zeroLimit
  zeroOut    := w.zeroOut
  overload   := w.ind.overload
  underload  := w.ind.underload
  tareActive := w.tare != .none
  disturbed  := w.disturbed
  interlock  := w.interlock

/-- The detail of WEIGHT (R26). -/
def Wch.detail (w : Wch) : Notice := .weight w.state w.bits

/-- The mass figures of the latest update, present as R27's table gives. -/
def State.figures? (s : State) : Option Figures :=
  match s.wch.state with
  | .running | .test | .cal =>
    if s.wch.ind.overload || s.wch.ind.underload then none else s.wch.last.bind Update.figures
  | .starting | .zeroPending | .fault => none

/-- The filtered value F, present as R27's table gives; that 'all' figures of RUNNING, TEST and CAL take in F, which the list
of R27 does not name, is the model's choice (log 62). -/
def State.filtered? (s : State) : Option Int :=
  match s.wch.state with
  | .running | .test =>
    if s.wch.ind.overload || s.wch.ind.underload then none else s.wch.last.map Update.f
  | .cal =>
    match s.wch.last with
    | some u => if u.figures.isSome && (s.wch.ind.overload || s.wch.ind.underload) then none else some u.f
    | none => none
  | .zeroPending => s.wch.last.map Update.f
  | .starting | .fault => none

/-- A write of calibration figures is in flight (R44, R47, R48, R52). -/
def Sst.commitInFlight (t : Sst) : Bool :=
  match t.inFlight with
  | some ⟨.totals _ _, _⟩ => false
  | some _ => true
  | none => false

/-- A hold on the till is in force (R109). -/
def State.held (s : State) : Bool := s.pbu.warning || s.wch.state == .cal

/-- The sale in the open slot, when it is in OPEN. -/
def State.openSale? (s : State) : Option Sale :=
  match s.sru.openSlot with
  | some o => if o.state = .opened then some o else none
  | none => none

/-- The open and closing slots are both empty (R24, R46, R142). -/
def State.slotsEmpty (s : State) : Bool := s.sru.openSlot.isNone && s.sru.closing.isNone

end Sys2Proof.Machine
end

