-- ==== Sys2Proof/Machine/Ops.lean ====
section
/-! DEFINITION. The shared operations: raising notices, the transmitter, the router (R188, R193 to R195), due times on the
clock, and how every command ends. -/

namespace Sys2Proof.Machine

open Sys2Proof

/-! ## Notices (R195) -/

/-- A notice entered in the pending set, which stands in ascending kind number: a detail already held is replaced. -/
def insertNotice (n : Notice) : List Notice → List Notice
  | [] => [n]
  | m :: ms =>
    if n.kind < m.kind then n :: m :: ms
    else if n.kind = m.kind then n :: ms
    else m :: insertNotice n ms

/-- A block raises a notice (R195). -/
def raise (n : Notice) (s : State) : State :=
  { s with lli := { s.lli with notices := insertNotice n s.lli.notices } }

/-- WEIGHT is raised with the channel state and the full set of bits (R26). -/
def raiseWeight (s : State) : State := raise s.wch.detail s

/-- The link error flag is set (R198). -/
def linkError (s : State) : State := { s with lli := { s.lli with linkError := true } }

/-! ## The clock -/

/-- A due time has come: the clock stands at it or beyond (log 4). -/
def reach (due : Nat) (s : State) : State := { s with clock := max s.clock due }

/-! ## The transmitter (R194) -/

/-- The mask enables the kind of a notice (R195). -/
def enabled (mask : Vector Bool 15) (n : Notice) : Bool := mask.toList.getD (n.kind - 1) false

/-- Whether a notice is of the ACCESSORY kind, whose blocked-scan count returns to 0 when it goes out (R165). -/
def isAccessory (n : Notice) : Bool := n.kind == 14

/-- The choice of the next frame by a free transmitter (R194): the oldest response, else the lowest enabled notice, else
the oldest ACC_UP frame. -/
def chooseFrame (s : State) : State :=
  match s.lli.responses with
  | r :: rs => { s with lli := { s.lli with responses := rs, sending := some (.response r) } }
  | [] =>
    match s.lli.notices.find? (enabled s.lli.mask) with
    | some n =>
      { s with
        lli := { s.lli with notices := s.lli.notices.filter (fun m => m.kind != n.kind), sending := some (.notice n) }
        acp := { s.acp with blocked := if isAccessory n then 0 else s.acp.blocked } }
    | none =>
      match s.lli.accUps with
      | f :: fs => { s with lli := { s.lli with accUps := fs, sending := some (.accUp f) } }
      | [] => s

/-- An idle transmitter chooses (R194); after the response of CONTROLLER_RESET it sends nothing (R188, log 14). -/
def pump (s : State) : State :=
  if s.lli.sending.isSome || s.lli.resetAnswer == .sent then s else chooseFrame s

/-- WEIGHT is raised when the channel state or a bit has changed (R26). -/
def noteWeight (before s : State) : State := if before.wch.detail = s.wch.detail then s else raiseWeight s

/-- The end of every command's event: WEIGHT for what changed, then the transmitter's choice. -/
def finish (before s : State) : State := pump (noteWeight before s)

/-- A command that is not a request: its effect, then the end of the event. -/
def event (f : State → State) (s : State) : Host.Outcome State Fault Refusal := .next (finish s (f s))

/-! ## The router (R193) -/

/-- What a block answers to a request. -/
structure Reply where
  verdict : Verdict
  fields  : List Field
  deriving DecidableEq, Repr

/-- OK with result fields, and the state that goes with it. -/
def okay (fields : List Field) (s : State) : State × Reply := (s, ⟨.ok, fields⟩)

/-- ACCEPTED: the work has begun. -/
def accept (s : State) : State × Reply := (s, ⟨.accepted, []⟩)

/-- REFUSED with a reason; nothing changes. -/
def refuse (r : Reason) (s : State) : State × Reply := (s, ⟨.refused r, []⟩)

/-- A response enters the response part (R193). -/
def respond (r : Response) (s : State) : State :=
  { s with lli := { s.lli with responses := s.lli.responses ++ [r] } }

/-- The router takes requests: CONTROLLER_RESET has not been taken, and the response part has room (R188, R193). -/
def routerOpen (s : State) : Bool := s.lli.resetAnswer == .none && decide (s.lli.responses.length < 8)

/-- A request arrives (R193): it joins the tail, or is refused BUSY_LINK, or is dropped with the link error flag set. -/
def arriveRequest (i : Instr) (tag : Byte) (s : State) : State :=
  if s.lli.requests.length < 8 then { s with lli := { s.lli with requests := s.lli.requests ++ [i] } }
  else if s.lli.responses.length < 8 then respond ⟨tag, .refused .busyLink, [], false⟩ s
  else linkError s

/-- The oldest request leaves the queue. -/
def popRequest (s : State) : State := { s with lli := { s.lli with requests := s.lli.requests.tail } }

/-- The owning block answers, and the response enters the response part with the request's tag (R193). -/
def answer (tag : Byte) (ofReset : Bool) (h : State → State × Reply) (s : State) : State :=
  respond ⟨tag, (h s).2.verdict, (h s).2.fields, ofReset⟩ (h s).1

/-- The router comes to a request (R193, log 6). The oldest request of the queue, or a request that finds the queue
empty, is handled when the router takes requests, and waits otherwise; a request behind others joins the queue. -/
def route (i : Instr) (tag : Byte) (ofReset : Bool) (h : State → State × Reply) (s : State) : State :=
  match s.lli.requests with
  | [] => if routerOpen s then answer tag ofReset h s else arriveRequest i tag s
  | r :: _ =>
    if r = i then if routerOpen s then answer tag ofReset h (popRequest s) else s
    else arriveRequest i tag s

/-- A request: the router's event, then the end of the event. -/
def request (i : Instr) (tag : Byte) (h : State → State × Reply) (s : State) : Host.Outcome State Fault Refusal :=
  .next (finish s (route i tag false h s))

end Sys2Proof.Machine
end

