-- ==== Sys2Proof/Machine/Budget.lean ====
section
/-! DEFINITION. The pulse budget unit (chapter 8): the grant list, the arbiter, granting, and the disturbance window that a
solenoid grant opens (R18, R152). -/

namespace Sys2Proof.Machine

open Sys2Proof

/-- The sum of the costs of a grant list (R146). -/
def grantSum (l : List Grant) : Nat := (l.map Grant.cost).sum

/-- The budget of units over the window (R146). -/
def budget : Nat := 64

/-- The cost of a solenoid pulse (R147). -/
def solenoidCost : Nat := 40

/-- The cost of a phase (R131, R147). -/
def Phase.cost (p : Phase) : Nat := (p.dots + 15) / 16

/-- An averaging step starts its average again, its timer running on (R48). -/
def CalRun.again (r : CalRun) : CalRun := { r with averaging := false, sum := 0, count := 0 }

/-- The opening of the window restarts an average in progress (R48). -/
def CalContext.disturb (c : CalContext) : CalContext :=
  { c with run := c.run.map fun r => if r.averaging then r.again else r }

/-- A solenoid pulse has been granted: the window opens, or stays open with its closing time cancelled (R18). -/
def openWindow (s : State) : State :=
  { s with wch := { s.wch with
      window := .opened none
      cal := if s.wch.disturbed then s.wch.cal else s.wch.cal.map CalContext.disturb } }

/-- The print line whose row asks for a phase (R155). -/
def Pen.owner (p : Pen) : RowOwner :=
  match p.queue with
  | .line l :: _ => ⟨l.saleTag, l.line⟩
  | _ => ⟨none, none⟩

/-- The conditions of a solenoid grant (R151). -/
def Pbu.solenoidFits (p : Pbu) : Bool :=
  p.arbiter.isNone && p.pulse.isNone && decide (grantSum p.grants + solenoidCost ≤ budget)

/-- The conditions of a phase grant (R151). -/
def Pbu.phaseFits (p : Pbu) (r : PhaseReq) : Bool :=
  (if r.first then p.arbiter.isNone && p.solenoidReq.isNone else p.arbiter.isSome) &&
  p.pulse.isNone && decide (grantSum p.grants + r.cost ≤ budget)

/-- A solenoid grant (R151, R152), which TLC takes by R110 and WCH by R18. -/
def grantSolenoid (s : State) : State :=
  openWindow { s with
    pbu := { s.pbu with
      grants := s.pbu.grants ++ [⟨.solenoid, s.clock, solenoidCost⟩]
      pulse := some s.clock
      solenoidReq := none }
    tlc := { s.tlc with
      retries := s.tlc.retries + 1
      state := .pulsing (s.clock + s.lli.params.drawerPulse * 1000) } }

/-- The printer strobes the phase it was granted for 400 us (R132). -/
def PrinterState.strobe (clock : Nat) : PrinterState → PrinterState
  | .printing rest (.waiting p) => .printing rest (.strobing p (clock + 400))
  | st => st

/-- A phase grant (R150, R151, R153), which PEN takes by R132. -/
def grantPhase (r : PhaseReq) (s : State) : State :=
  { s with
    pbu := { s.pbu with
      grants := s.pbu.grants ++ [⟨.phase, s.clock, r.cost⟩]
      strobe := true
      arbiter := if r.first then some s.pen.owner else s.pbu.arbiter
      phaseReq := none }
    pen := { s.pen with state := s.pen.state.strobe s.clock } }

/-- The phase request examined (R151). -/
def examinePhase (s : State) : State :=
  match s.pbu.phaseReq with
  | some r => if s.pbu.phaseFits r then grantPhase r s else s
  | none => s

/-- PBU examines its waiting requests: the solenoid request first, at most one grant (R151). -/
def examine (s : State) : State :=
  if s.pbu.solenoidReq.isSome && s.pbu.solenoidFits then grantSolenoid s else examinePhase s

/-- PEN places a phase request (R149). -/
def placePhase (first : Bool) (cost : Nat) (s : State) : State :=
  examine { s with pbu := { s.pbu with phaseReq := some ⟨first, cost, s.clock⟩ } }

/-- TLC places its solenoid request (R149). -/
def placeSolenoid (s : State) : State :=
  examine { s with pbu := { s.pbu with solenoidReq := some s.clock } }

/-- TLC withdraws its solenoid request (R149). -/
def withdrawSolenoid (s : State) : State :=
  examine { s with pbu := { s.pbu with solenoidReq := none } }

/-- The window's closing time is set at the end of a pulse (R18). -/
def Wch.setClosing (w : Wch) (due : Nat) : Wch :=
  match w.window with
  | .closed => w
  | .opened _ => { w with window := .opened (some due) }

/-- TLC reports the end of a pulse (R152). -/
def reportPulseEnd (s : State) : State :=
  examine { s with
    pbu := { s.pbu with pulse := none }
    wch := s.wch.setClosing (s.clock + s.lli.params.disturbanceSettle * 1000) }

/-- PEN reports the end of a row: the arbiter is freed, and PBU examines (R150, R153). -/
def reportRowEnd (s : State) : State :=
  examine { s with pbu := { s.pbu with arbiter := none } }

end Sys2Proof.Machine
end

