-- ==== Sys2Proof/Machine/SaleRecord.lean ====
section
/-! DEFINITION. The sale record by itself: its lines, totals, limits and referrals (R62 to R65, R73), and the masked
account (R104). -/

namespace Sys2Proof.Machine

open Sys2Proof

/-- The item lines of section 4.2. -/
def LineKind.isItem : LineKind → Bool
  | .item => true
  | .weighed => true
  | .embedded => true
  | .text => true
  | .void => false
  | .cash => false
  | .card => false

/-- The tender lines of section 4.2. -/
def LineKind.isTender : LineKind → Bool
  | .cash => true
  | .card => true
  | .item => false
  | .weighed => false
  | .embedded => false
  | .text => false
  | .void => false

/-- The line of a number (R62). -/
def Sale.line? (o : Sale) (n : Nat) : Option Line := o.lines.find? fun l => l.number == n

/-- The kind of the line that a VOID line voids. -/
def Sale.voidedKind (o : Sale) (l : Line) : Option LineKind := (l.voided.bind o.line?).map Line.kind

/-- A line counts in the item total: an item line, or a VOID line whose voided line is one (R64). -/
def Sale.inItems (o : Sale) (l : Line) : Bool :=
  match l.kind with
  | .void => (o.voidedKind l).any LineKind.isItem
  | k => k.isItem

/-- A line counts in the tender total: CASH, CARD, or a VOID line whose voided line is CASH (R64). -/
def Sale.inTenders (o : Sale) (l : Line) : Bool :=
  match l.kind with
  | .void => o.voidedKind l == some .cash
  | k => k.isTender

/-- The item total (R64). -/
def Sale.itemTotal (o : Sale) : Int := ((o.lines.filter o.inItems).map Line.amount).sum

/-- The tender total (R64). -/
def Sale.tenderTotal (o : Sale) : Int := ((o.lines.filter o.inTenders).map Line.amount).sum

/-- The balance due (R64). -/
def Sale.balance (o : Sale) : Int := o.itemTotal - o.tenderTotal

/-- The line list has room (check 1 of R65). -/
def Sale.hasRoom (o : Sale) : Bool := decide (o.lines.length < 200)

/-- The item total with an amount added stays in its range (check 3 of R65). -/
def Sale.totalFits (o : Sale) (amount : Int) : Bool :=
  decide (0 ≤ o.itemTotal + amount) && decide (o.itemTotal + amount ≤ (maxItemTotal : Nat))

/-- The admission checks of an item line POSTED or REFERRED (R65). -/
def Sale.admits (o : Sale) (l : Line) : Bool :=
  o.hasRoom &&
  (if l.state = .referred then decide (o.referrals.length < 4) else o.totalFits l.amount)

/-- A line appended, numbered one above the last (R62). -/
def Sale.append (o : Sale) (l : Line) : Sale := { o with lines := o.lines ++ [{ l with number := o.lines.length + 1 }] }

/-- The number of the line just appended. -/
def Sale.lastNumber (o : Sale) : Nat := o.lines.length

/-- One line of the list changed. -/
def Sale.edit (o : Sale) (n : Nat) (f : Line → Line) : Sale :=
  { o with lines := o.lines.map fun l => if l.number = n then f l else l }

/-- A referral leaves the list with its timer (R73). -/
def Sale.dropReferral (o : Sale) (n : Nat) : Sale := { o with referrals := o.referrals.filter fun r => r.line != n }

/-- The outstanding line numbers in raise order (R73). -/
def Sale.outstanding (o : Sale) : List Nat := o.referrals.map Referral.line

/-- The sale has a line of a kind, in any state. -/
def Sale.hasKind (o : Sale) (k : LineKind) : Bool := o.lines.any fun l => l.kind == k

/-- A line becomes VOIDED with amount 0, and its referral leaves the list (R63, R74, R75). -/
def Sale.voidReferred (o : Sale) (n : Nat) : Sale :=
  (o.edit n fun l => { l with state := .voided, amount := 0 }).dropReferral n

/-- A line with nothing optional present; its number is set when it is appended. -/
def Line.plain (k : LineKind) (st : LineState) (text : List Byte) (amount : Int) : Line where
  number    := 0
  kind      := k
  state     := st
  plu       := none
  text      := text
  quantity  := none
  mass      := none
  unitPrice := none
  basis     := none
  amount    := amount
  voided    := none
  card      := none
  print     := .notQueued

/-- A new sale (R66). -/
def Sale.fresh (tag itemGen : Nat) : Sale where
  tag         := tag
  state       := .opened
  closingKind := none
  resumed     := false
  lines       := []
  referrals   := []
  cardTender  := none
  changeDue   := 0
  itemGen     := itemGen
  nextToQueue := 1
  incomplete  := false
  saleNumber  := none

/-- The masked account: the first `m` and the last four digits kept (R104). -/
def maskAccount (m : Nat) (account : List Byte) : List Byte :=
  account.take m ++ List.replicate (account.length - m - 4) 42 ++ account.drop (max m (account.length - 4))

/-- The lowest line number in print state QUEUED. -/
def Sale.firstQueued (o : Sale) : Option Nat := (o.lines.find? fun l => l.print == .queued).map Line.number

/-- A discard returns the QUEUED lines to NOT_QUEUED and the index to the lowest of them (R60, R141). -/
def Sale.requeue (o : Sale) : Sale :=
  { o with
    nextToQueue := o.firstQueued.getD o.nextToQueue
    lines := o.lines.map fun l => if l.print = .queued then { l with print := .notQueued } else l }

end Sys2Proof.Machine
end

