-- ==== Sys2Proof/Machine/TableOps.lean ====
section
/-! DEFINITION. The operations of the table store that other blocks use: looking at a table by name, lookups in the active
banks, and the swap with its conditions (R173, R182). -/

namespace Sys2Proof.Machine

open Sys2Proof

/-! ## Tables by name -/

/-- What `f` sees of the banks of a table. -/
def Tbs.look {β : Type} (t : Tbs) (n : TableName) (f : (α : Type) → TableBank α → β) : β :=
  match n with
  | .item => f _ t.item
  | .code => f _ t.code
  | .font => f _ t.font
  | .cardFormat => f _ t.cardFormat
  | .headerTrailer => f _ t.headerTrailer

/-- The banks of a table changed. -/
def Tbs.edit (t : Tbs) (n : TableName) (f : (α : Type) → TableBank α → TableBank α) : Tbs :=
  match n with
  | .item => { t with item := f _ t.item }
  | .code => { t with code := f _ t.code }
  | .font => { t with font := f _ t.font }
  | .cardFormat => { t with cardFormat := f _ t.cardFormat }
  | .headerTrailer => { t with headerTrailer := f _ t.headerTrailer }

/-- The state of a table's load bank. -/
def Tbs.loadState (t : Tbs) (n : TableName) : LoadState := t.look n fun _ b => b.loadState

/-- A table's generation. -/
def Tbs.generation (t : Tbs) (n : TableName) : Nat := t.look n fun _ b => b.generation

/-! ## Lookups in the active banks -/

/-- The item of a PLU in the active item table (R19, R68). -/
def Tbs.findItem (t : Tbs) (plu : Nat) : Option ItemEntry := t.item.active.find? fun e => e.plu == plu

/-- The active card format entry of a track (R89). -/
def Tbs.findFormat (t : Tbs) (k : Track) : Option FormatEntry := t.cardFormat.active.find? fun e => e.track == k

/-! ## The swap -/

/-- An entry put in its place by ascending key. -/
def insertBy {α : Type} (key : α → Nat) (a : α) : List α → List α
  | [] => [a]
  | b :: bs => if key a ≤ key b then a :: b :: bs else b :: insertBy key a bs

/-- Entries in ascending key. -/
def sortBy {α : Type} (key : α → Nat) (l : List α) : List α := l.foldr (insertBy key) []

/-- The generation after one swap more (R182). -/
def nextGeneration (g : Nat) : Nat := if g = 65535 then 1 else g + 1

/-- A PENDING bank becomes the active bank (R182). -/
def TableBank.swap {α : Type} (order : List α → List α) (b : TableBank α) : TableBank α where
  active     := order b.load
  load       := []
  loadState  := .empty
  generation := nextGeneration b.generation
  last       := some .swapped

/-- The place of a header/trailer entry in its table's order (section 10.1). -/
def HeaderEntry.key (h : HeaderEntry) : Nat := (if h.trailer then 4 else 0) + h.position

/-- A table's swap, its entries put in the table's order (section 10.1, R182). -/
def Tbs.swap (t : Tbs) (n : TableName) : Tbs :=
  match n with
  | .item => { t with item := t.item.swap (sortBy ItemEntry.plu) }
  | .code => { t with code := t.code.swap id }
  | .font => { t with font := t.font.swap (sortBy GlyphEntry.code) }
  | .cardFormat => { t with cardFormat := t.cardFormat.swap (sortBy fun e => trackCode e.track) }
  | .headerTrailer => { t with headerTrailer := t.headerTrailer.swap (sortBy HeaderEntry.key) }

/-- The printer is IDLE or HALTED. -/
def PrinterState.resting : PrinterState → Bool
  | .idle => true
  | .halted _ => true
  | .printing _ _ => false
  | .feeding _ => false
  | .cutting _ _ => false
  | .hotWait => false

/-- A decoder is IDLE or DONE. -/
def Decoder.resting (d : Decoder) : Bool := d.state == .idle || d.state == .done

/-- The swap condition of a table (section 10.1). -/
def State.swapReady (s : State) (n : TableName) : Bool :=
  match n with
  | .item => s.sru.openSlot.isNone
  | .code => s.sru.openSlot.isNone
  | .font => s.pen.queue.isEmpty && s.pen.state.resting
  | .headerTrailer => s.pen.queue.isEmpty && s.pen.state.resting
  | .cardFormat => s.sdc.trackA.resting && s.sdc.trackB.resting

/-- A PENDING table swaps when its condition holds, and TABLE is raised (R182). -/
def trySwap (n : TableName) (s : State) : State :=
  if s.tbs.loadState n == .pending && s.swapReady n then
    raise (.table n ((s.tbs.swap n).generation n) .swapped) { s with tbs := s.tbs.swap n }
  else s

/-- The swaps that wait for the open slot to be empty (R182); the item table first (log 50). -/
def swapSlotTables (s : State) : State := trySwap .code (trySwap .item s)

/-- The swaps that wait for the printer (R182); the font table first (log 50). -/
def swapPrintTables (s : State) : State := trySwap .headerTrailer (trySwap .font s)

end Sys2Proof.Machine
end

