-- ==== Sys2Proof/Machine/Composer.lean ====
section
/-! DEFINITION. The composer (R122 to R129): what print lines a sale line, a header group and a closing tail give, and the
filling of the print queue. -/

namespace Sys2Proof.Machine

open Sys2Proof

/-! ## Print lines -/

/-- A print line, its text filled to 32 bytes (R122). -/
def printLine (source : PrintSource) (tag line : Option Nat) (text : List Byte) (double cutAfter : Bool) : QueueEntry :=
  .line ⟨source, tag, line, fill32 text, double, cutAfter, 0⟩

/-- A print line of a sale line (R126): normal height, no cut. -/
def salePrint (tag : Nat) (source : PrintSource) (line : Nat) (text : List Byte) : QueueEntry :=
  printLine source (some tag) (some line) text false false

/-- The text and the amount of a sale line, on one print line or on two (R127). -/
def textAmountLines (tag line : Nat) (text amount : List Byte) : List QueueEntry :=
  if text.length ≤ 21 then [salePrint tag .sale line (textAndAmount text amount)]
  else [salePrint tag .sale line text, salePrint tag .saleExtra line (textAndAmount [] amount)]

/-- The text of an item line, or "PLU p" when it is empty (R126). -/
def Line.printText (l : Line) : List Byte :=
  if l.text.isEmpty then
    match l.plu with
    | some p => ascii "PLU " ++ natText p
    | none => []
  else l.text

/-- The unit price of an ITEM line's second print line; its text is free when the line has none (log 31). -/
def Line.unitText (d : Nat) (l : Line) (q : Nat) : List Byte :=
  match l.unitPrice with
  | some u => decimalText d u
  | none => (Config.absentUnitPriceText q).take 24

/-- The mass line of a WEIGHED line (R126). -/
def massLine (d : Nat) (l : Line) (m : MassRecord) : List Byte :=
  massText m.certified ++ ascii " kg" ++
  (match l.unitPrice with
   | some u => ascii " @ " ++ decimalText d u ++ (if l.basis = some .per100g then ascii "/100g" else ascii "/kg")
   | none => []) ++
  (if m.tare = .none then [] else ascii " T" ++ massText m.tare.value)

/-- The print lines of a sale line (R126); `d` is *amount decimals*. -/
def Sale.printLines (o : Sale) (d : Nat) (l : Line) : List QueueEntry :=
  let amount := decimalText d l.amount
  let extra := salePrint o.tag .saleExtra l.number
  if l.kind.isItem && l.state == .voided && !(o.lines.any fun v => v.kind == .void && v.voided == some l.number) then
    [salePrint o.tag .sale l.number (textAndAmount l.printText (ascii "NOT SOLD"))]
  else
    match l.kind with
    | .item =>
      textAmountLines o.tag l.number l.printText amount ++
        (match l.quantity with
         | some q => if q ≤ 1 then [] else [extra (natText q ++ ascii " x " ++ l.unitText d q)]
         | none => [])
    | .weighed =>
      textAmountLines o.tag l.number l.printText amount ++
        (match l.mass with
         | some m => [extra (massLine d l m)]
         | none => [])
    | .embedded => textAmountLines o.tag l.number l.printText amount
    | .text => textAmountLines o.tag l.number l.text amount
    | .void => textAmountLines o.tag l.number (ascii "VOID " ++ natText (l.voided.getD 0)) amount
    | .cash => textAmountLines o.tag l.number (ascii "CASH") amount
    | .card =>
      textAmountLines o.tag l.number (ascii "CARD") amount ++
        (match l.card with
         | some c => [extra c.masked, extra (ascii "APPROVAL " ++ c.approval)]
         | none => [])

/-- The header group of a sale (R124). -/
def headerGroup (headers : List HeaderEntry) (o : Sale) : List QueueEntry :=
  ((headers.filter fun h => !h.trailer).map fun h => printLine .header (some o.tag) none h.text h.double false) ++
  (if o.resumed then [printLine .note (some o.tag) none (ascii "*** SALE RESUMED ***") false false] else [])

/-- The closing tail of a sale (R128). -/
def closingTail (headers : List HeaderEntry) (d : Nat) (o : Sale) (k : ClosingKind) : List QueueEntry :=
  let note := fun text double cutAfter => printLine .note (some o.tag) none text double cutAfter
  match k with
  | .settled =>
    [note (textAndAmount (ascii "TOTAL") (decimalText d o.itemTotal)) true false] ++
    (if 0 < o.changeDue then [note (textAndAmount (ascii "CHANGE") (decimalText d o.changeDue)) false false] else []) ++
    ((headers.filter fun h => h.trailer).map fun h => printLine .trailer (some o.tag) none h.text h.double false) ++
    [note (match o.saleNumber with
           | some n => ascii "SALE " ++ natText n
           | none => ascii "SALE") false true]
  | .suspended => [note (ascii "*** SALE SUSPENDED ***") false true]
  | .aborted => [note (ascii "*** SALE ABORTED ***") false true]

/-! ## Filling the queue -/

/-- The capacity of the print queue (R122). -/
def queueCapacity : Nat := 48

/-- The composer goes on taking lines of this sale (R125). -/
def Sale.linesTaken (o : Sale) : Bool :=
  match o.state with
  | .opened => true
  | .tendering => true
  | .authWait => true
  | .settled => true
  | .closing => o.closingKind == some .settled
  | .aborted => false
  | .suspended => false

/-- The lines of a sale taken in number order from its next-to-queue index, as far as the room allows (R125). -/
def composeLines (d : Nat) : Nat → Sale → List QueueEntry → Sale × List QueueEntry
  | 0, o, q => (o, q)
  | fuel + 1, o, q =>
    match o.line? o.nextToQueue with
    | none => (o, q)
    | some l =>
      if l.state = .referred ∨ l.print ≠ .notQueued then (o, q)
      else if q.length + (o.printLines d l).length ≤ queueCapacity then
        composeLines d fuel
          { o.edit l.number (fun l => { l with print := .queued }) with nextToQueue := o.nextToQueue + 1 }
          (q ++ o.printLines d l)
      else (o, q)

/-- What the composer works on: its context, the sale it reads and the queue. -/
structure Composing where
  context : Composer
  sale    : Sale
  queue   : List QueueEntry

/-- The header group enters when the room is at least its number of lines (R124). -/
def composeHeader (headers : List HeaderEntry) (c : Composing) : Composing :=
  if c.context.header then c
  else if c.queue.length + (headerGroup headers c.sale).length ≤ queueCapacity then
    { c with context := { c.context with header := true }, queue := c.queue ++ headerGroup headers c.sale }
  else c

/-- The sale's lines, once the header flag is set (R125). -/
def composeSaleLines (d : Nat) (c : Composing) : Composing :=
  if c.context.header && c.sale.linesTaken then
    { c with
      sale := (composeLines d (c.sale.lines.length + 1) c.sale c.queue).1
      queue := (composeLines d (c.sale.lines.length + 1) c.sale c.queue).2 }
  else c

/-- The tail may enter: CLOSING, the header in, the tail not, and for SETTLED every line taken (R128). -/
def Composing.tailDue (c : Composing) : Option ClosingKind :=
  if c.context.header && !c.context.tail && c.sale.state == .closing then
    match c.sale.closingKind with
    | some .settled => if c.sale.lines.length < c.sale.nextToQueue then some .settled else none
    | k => k
  else none

/-- The closing tail enters when the room is at least its number of lines (R128). -/
def composeTail (headers : List HeaderEntry) (d : Nat) (c : Composing) : Composing :=
  match c.tailDue with
  | none => c
  | some k =>
    if c.queue.length + (closingTail headers d c.sale k).length ≤ queueCapacity then
      { c with context := { c.context with tail := true }, queue := c.queue ++ closingTail headers d c.sale k }
    else c

/-- The printing sale: the closing slot's, else the open slot's (R58, R123). -/
def Sru.printing (u : Sru) : Option Sale :=
  match u.closing with
  | some o => some o
  | none => u.openSlot

/-- The printing sale written back. -/
def Sru.setPrinting (u : Sru) (o : Sale) : Sru :=
  match u.closing with
  | some _ => { u with closing := some o }
  | none => { u with openSlot := some o }

/-- The composer's context for the printing sale: both flags clear when it was not the printing sale before (R123). -/
def Composer.follow (c : Composer) (printing : Option Sale) : Composer :=
  if c.sale = printing.map Sale.tag then c else ⟨printing.map Sale.tag, false, false⟩

/-- The composer queues the header group, the lines and the tail of the printing sale, as far as the room allows (R123). -/
def composerFill (s : State) : State :=
  match s.sru.printing with
  | none => { s with pen := { s.pen with context := s.pen.context.follow none } }
  | some o =>
    let headers := s.tbs.headerTrailer.active
    let d := s.lli.params.amountDecimals
    let c := composeTail headers d (composeSaleLines d (composeHeader headers
      ⟨s.pen.context.follow (some o), o, s.pen.queue⟩))
    { s with
      pen := { s.pen with context := c.context, queue := c.queue }
      sru := s.sru.setPrinting c.sale }

end Sys2Proof.Machine
end

