-- ==== Sys2Proof/Machine/PrinterOps.lean ====
section
/-! DEFINITION. The printer (R121, R130 to R138): dots of a glyph row, phases, what the printer does next, and halts. -/

namespace Sys2Proof.Machine

open Sys2Proof

/-! ## Dot rows -/

/-- The glyph of a byte, `none` for a filled box (R121). -/
def glyphOf (font : List GlyphEntry) (b : Byte) : Option GlyphEntry :=
  let byCode := fun c => font.find? fun (g : GlyphEntry) => g.code == c
  if 32 ≤ b.toNat ∧ b.toNat ≤ 126 then byCode b.toNat
  else if b.toNat = 127 then none
  else byCode 63

/-- The twelve dots of one row of a byte's glyph; a filled box has all dots set (R121, R176). -/
def glyphDots (font : List GlyphEntry) (r : Nat) (b : Byte) : List Bool :=
  match glyphOf font b with
  | some g => (List.range 12).map fun k => ((g.rows[r]?).getD 0).getLsbD k
  | none => List.replicate 12 true

/-- The 384 dots of row `r` of the glyphs of a text (R121). -/
def rowDots (font : List GlyphEntry) (r : Nat) (text : List Byte) : List Bool := text.flatMap (glyphDots font r)

/-- The black dots of each of the six blocks of 64 (R130). -/
def blockCounts (dots : List Bool) : List Nat :=
  (List.range 6).map fun j => ((dots.drop (64 * j)).take 64).count true

/-- The phase splitter, with the phase that is open (R131). -/
def splitFrom (dMax : Nat) : List (Nat × Nat) → Option Phase → List Phase
  | [], none => []
  | [], some p => [p]
  | (j, b) :: rest, cur =>
    if b = 0 then splitFrom dMax rest cur
    else
      match cur with
      | none => splitFrom dMax rest (some ⟨[j], b⟩)
      | some p =>
        if p.dots + b ≤ dMax then splitFrom dMax rest (some ⟨p.blocks ++ [j], p.dots + b⟩)
        else p :: splitFrom dMax rest (some ⟨[j], b⟩)

/-- The phases of a row of block counts (R131). -/
def splitPhases (dMax : Nat) (counts : List Nat) : List Phase :=
  splitFrom dMax ((List.range counts.length).zip counts) none

/-- The glyph rows of a print line: 48 for double height, else 24 (R121). -/
def PrintLine.rows (p : PrintLine) : Nat := if p.double then 48 else 24

/-- The row of the glyphs that the next glyph row of a line draws (R121). -/
def PrintLine.glyphRow (p : PrintLine) : Nat := if p.double then p.rowsDone / 2 else p.rowsDone

/-! ## What the printer does -/

/-- The printer's state set. -/
def setPrinter (st : PrinterState) (s : State) : State := { s with pen := { s.pen with state := st } }

/-- PRINTER is raised with the printer state and the near-end flag (R143). -/
def raisePrinter (s : State) : State := raise (.printer s.pen.state s.pen.nearEnd) s

/-- The printer enters HALTED: PRINTER is raised, and tables that wait for a resting printer may swap (R137, R138, R182). -/
def enterHalt (r : HaltReason) (s : State) : State := swapPrintTables (raisePrinter (setPrinter (.halted r) s))

/-- The head print line is to be printed again from its first row (R137). -/
def restartHead : List QueueEntry → List QueueEntry
  | .line p :: q => .line { p with rowsDone := 0 } :: q
  | q => q

/-- A halt mark acts (R137). -/
def actMark (s : State) : State :=
  enterHalt (if s.pen.coverMark then .coverOpen else .paperOut)
    { s with pen := { s.pen with paperMark := false, coverMark := false, queue := restartHead s.pen.queue } }

/-- A glyph row begins: its phases are split, and its first phase is asked for, or its paper step is made (R130 to R132). -/
def startRow (p : PrintLine) (s : State) : State :=
  match splitPhases s.lli.params.printDensity (blockCounts (rowDots s.tbs.font.active p.glyphRow p.text)) with
  | [] => setPrinter (.printing [] (.stepping (s.clock + 1000))) s
  | ph :: rest => placePhase true ph.cost (setPrinter (.printing rest (.waiting ph)) s)

/-- A cutter cycle begins with its 800 ms timer; a switch that shows AWAY at the start has shown AWAY (R134, log 29). -/
def startCut (s : State) : State := setPrinter (.cutting (s.clock + 800000) !s.pen.home) s

/-- The halt tests of R135: a mark first (R137), then the supply warning (R138). -/
def haltTest (s : State) : Option State :=
  if s.pen.paperMark || s.pen.coverMark then some (actMark s)
  else if s.pbu.warning then some (enterHalt .supply s)
  else none

/-- A feed entry is taken: the counter rises by its rows, up to 255 in all (R133). -/
def takeFeed (rows : Nat) (q : List QueueEntry) (s : State) : State :=
  { s with pen := { s.pen with queue := q, feed := min 255 (s.pen.feed + rows) } }

/-- A cut entry is taken: the paper last marked is fed past the blade, and a cut is owed with no tag (R133). -/
def takeCut (q : List QueueEntry) (s : State) : State :=
  { s with pen := { s.pen with queue := q, feed := 96 - s.pen.sinceGlyph, owed := some none } }

/-- The printer goes on (R135). An entry taken leaves the queue, so the composer acts (R123), and the printer goes on
again; `fuel` bounds that, which the rows of an entry end at once. -/
def goOnFrom : Nat → State → State
  | 0, s => s
  | fuel + 1, s =>
    match haltTest s with
    | some halted => halted
    | none =>
      if 0 < s.pen.feed then setPrinter (.feeding (s.clock + 1000)) s
      else if s.pen.owed.isSome then startCut s
      else
        match s.pen.queue with
        | .feed rows :: q => goOnFrom fuel (composerFill (takeFeed rows q s))
        | .cut :: q => goOnFrom fuel (composerFill (takeCut q s))
        | .line p :: _ => if s.pen.headHot then setPrinter .hotWait s else startRow p s
        | [] => swapPrintTables (setPrinter .idle s)

/-- The printer goes on (R135). -/
def goOn (s : State) : State := goOnFrom (queueCapacity + 1) s

/-- An entry has entered the queue: an IDLE printer goes on (R135). -/
def wakePrinter (s : State) : State :=
  if s.pen.state = .idle ∧ !s.pen.queue.isEmpty then goOn s else s

/-- The composer acts, and an IDLE printer goes on when an entry has entered (R123, R135). -/
def composerAct (s : State) : State := wakePrinter (composerFill s)

end Sys2Proof.Machine
end

