-- ==== Sys2Proof/Machine/StoreOps.lean ====
section
/-! DEFINITION. The operations of the sealed store that other blocks use: starting a write, a TOTALS request (R55), and the
number of a settled sale (R57). -/

namespace Sys2Proof.Machine

open Sys2Proof

/-- A write starts with its 50 ms timer (R55). -/
def startWrite (data : WriteData) (s : State) : State :=
  { s with sst := { s.sst with inFlight := some ⟨data, s.clock + 50000⟩ } }

/-- A TOTALS write starts with the image's figures of this moment (R55). -/
def startTotals (s : State) : State :=
  startWrite (.totals s.sst.image.saleCounter s.sst.image.grandTotal)
    { s with sst := { s.sst with pendingTotals := false } }

/-- A TOTALS write is requested (R55). -/
def requestTotals (s : State) : State :=
  if s.sst.state = .fault then s
  else if s.sst.inFlight.isNone && !s.pbu.warning then startTotals s
  else { s with sst := { s.sst with pendingTotals := true } }

/-- The image counts one settlement more (R57). -/
def SealedFigures.count (g : SealedFigures) (itemTotal : Nat) : SealedFigures :=
  { g with
    saleCounter := if g.saleCounter = 999999 then 1 else g.saleCounter + 1
    grandTotal := min maxGrandTotal (g.grandTotal + itemTotal) }

/-- The settlement's figures enter the image, unless the store is DAMAGED; an INTACT store requests their write (R57). -/
def countSale (itemTotal : Nat) (s : State) : State :=
  match s.sst.state with
  | .damaged => s
  | .intact => requestTotals { s with sst := { s.sst with image := s.sst.image.count itemTotal } }
  | .fault => { s with sst := { s.sst with image := s.sst.image.count itemTotal } }

/-- The number that SST returns for a settlement (R57). -/
def Sst.nextNumber (t : Sst) (itemTotal : Nat) : Option Nat :=
  if t.state = .damaged then none else some (t.image.count itemTotal).saleCounter

end Sys2Proof.Machine
end

