-- ==== Sys2Proof/Machine/TillOps.lean ====
section
/-! DEFINITION. The operations of the till controller that other blocks use: the issue of an authorization (R108), the way
to WAIT_GRANT (R109), and the coming and lifting of a hold (R109, R116). -/

namespace Sys2Proof.Machine

open Sys2Proof

/-- The drawer is sent toward WAIT_GRANT: CLOSED under a hold, else WAIT_GRANT with a request placed (R109). -/
def towardGrant (s : State) : State :=
  if s.held then { s with tlc := { s.tlc with state := .closed } }
  else placeSolenoid { s with tlc := { s.tlc with state := .waitGrant } }

/-- TLC's outcome of an issue (R108). -/
def Tlc.issueOutcome (t : Tlc) : IssueOutcome :=
  match t.state with
  | .closed => if t.auth.isNone then .taken else .merged
  | .opened _ _ => .satisfied
  | .overdue _ => .satisfied
  | .waitGrant => .merged
  | .pulsing _ => .merged
  | .confirming _ => .merged
  | .jammed => .merged

/-- SRU issues an authorization to TLC (R108, R110). -/
def issueAuth (a : Auth) (s : State) : State :=
  if s.tlc.issueOutcome = .taken then towardGrant { s with tlc := { s.tlc with auth := some a } } else s

/-- A hold comes into force: in WAIT_GRANT the request is withdrawn and the drawer is CLOSED (R109, R116). -/
def holdImposed (s : State) : State :=
  if s.tlc.state = .waitGrant then withdrawSolenoid { s with tlc := { s.tlc with state := .closed } } else s

/-- A hold has lifted: a CLOSED drawer with an authorization held goes to WAIT_GRANT when no hold remains (R109, R116). -/
def holdLifted (s : State) : State :=
  if s.tlc.state = .closed ∧ s.tlc.auth.isSome ∧ !s.held then towardGrant s else s

/-- DRAWER is raised with the state entered, the flag and an authorization (R118). -/
def raiseDrawer (a : Option Auth) (s : State) : State :=
  raise (.drawer s.tlc.state
    (match s.tlc.state with
     | .opened u _ => u
     | .overdue u => u
     | _ => false) a) s

/-- The drawer enters OPEN: the slot empties, the overdue timer starts, and DRAWER is raised with what was consumed
(R110 to R115). -/
def enterOpened (unauthorized : Bool) (s : State) : State :=
  raiseDrawer s.tlc.auth { s with tlc := { s.tlc with
    auth := none
    retries := 0
    state := .opened unauthorized (s.clock + s.lli.params.drawerOverdue * 1000000) } }

end Sys2Proof.Machine
end

