-- ==== Sys2Proof/Machine/WeighOps.lean ====
section
/-! DEFINITION. The operations of the weighing channel that other blocks use: the start and end of a capture (R16, R19 to
R22), the held scan that an empty capture slot starts (R167), restarts (R6), entering FAULT (R7) and leaving CAL (R47). -/

namespace Sys2Proof.Machine

open Sys2Proof

/-! ## Accessory units -/

/-- A unit by its number, 1 to 4. -/
def Units.get (u : Units) (n : Nat) : AccUnit :=
  match n with
  | 1 => u.u1
  | 2 => u.u2
  | 3 => u.u3
  | _ => u.u4

/-- A unit set by its number, 1 to 4. -/
def Units.set (u : Units) (n : Nat) (a : AccUnit) : Units :=
  match n with
  | 1 => { u with u1 := a }
  | 2 => { u with u2 := a }
  | 3 => { u with u3 := a }
  | _ => { u with u4 := a }

/-- ACCESSORY is raised with its cause, the unit and its presence, and the blocked-scan count as it stands (R171). -/
def raiseAccessory (c : AccCause) (unit : Nat) (reason : Option BlockReason) (line : Option Nat) (s : State) : State :=
  raise (.accessory c unit (s.acp.units.get unit).presence reason line s.acp.blocked) s

/-- The held-scan slot empties: the scanner is visited again from the next round (R167, log 48). -/
def Acp.release (a : Acp) (h : HeldScan) : Acp := { a with held := none, later := a.later.insert h.frame.unit }

/-- The held read is discarded, and ACCESSORY is raised (R167). -/
def discardHeld (s : State) : State :=
  match s.acp.held with
  | none => s
  | some h => raiseAccessory .heldDiscarded h.frame.unit none none { s with acp := s.acp.release h }

/-! ## Captures -/

/-- The ITEM tare that the start of a capture sets (R16). -/
def itemTare (r : CalRecord) (item : Option ItemEntry) : Tare :=
  match item.bind ItemEntry.presetTare with
  | none => .none
  | some p => if r.roundTare p = 0 then .none else .item (min (r.roundTare p) r.max1 * 10)

/-- The tare record at the start of a capture: an ITEM tare where the record is NONE (R16). -/
def tareAtStart (s : State) (item : Option ItemEntry) : Tare :=
  match s.wch.tare, s.record? with
  | .none, some r => itemTare r item
  | t, _ => t

/-- A capture is taken: the slot is WAITING with the item found and its timer (R19). -/
def beginCapture (plu : Nat) (src : CaptureSource) (s : State) : State :=
  { s with wch := { s.wch with
      capture := some ⟨plu, src, s.tbs.findItem plu, s.tbs.item.generation, s.clock + s.lli.params.captureTimeout * 1000⟩
      tare := tareAtStart s (s.tbs.findItem plu)
      lateCancel := false } }

/-- A PLU lies in 1 to 999,999. -/
def pluInRange (plu : Nat) : Bool := decide (1 ≤ plu) && decide (plu ≤ 999999)

/-- The first condition of R19 that fails, if any. -/
def captureRefusal (plu : Nat) (s : State) : Option Reason :=
  if !pluInRange plu then some .range
  else if s.wch.capture.isSome then some .busy
  else if s.wch.state ≠ .running then some .state
  else if s.openSale?.isNone then some .state
  else if (s.tbs.findItem plu).any fun e => e.basis == .each then some .notWeighed
  else none

/-- The tare record when a capture ends: an ITEM tare lapses (R16). -/
def Tare.lapse : Tare → Tare
  | .item _ => .none
  | t => t

/-- A waiting capture ends without a line (R22). -/
def endCapture (result : CaptureResult) (s : State) : State :=
  match s.wch.capture with
  | none => s
  | some c =>
    raise (.capture c.source result none)
      { s with wch := { s.wch with capture := none, tare := s.wch.tare.lapse, lateCancel := true } }

/-- The held read, while a sale is in OPEN, starts a capture when the capture slot is EMPTY (R167). -/
def startHeld (h : HeldScan) (s : State) : State :=
  match captureRefusal h.plu s with
  | none =>
    raiseAccessory .scanConsumed h.frame.unit none none
      { beginCapture h.plu .scan s with acp := s.acp.release h }
  | some .busy => s
  | some _ => discardHeld s

/-- WCH tells ACP that the capture slot is EMPTY (R20, R167). -/
def captureEmptied (s : State) : State :=
  match s.acp.held with
  | none => s
  | some h => if s.openSale?.isSome then startHeld h s else discardHeld s

/-- A waiting capture ends, and ACP hears that the slot is EMPTY. -/
def finishCapture (result : CaptureResult) (s : State) : State :=
  if s.wch.capture.isSome then captureEmptied (endCapture result s) else s

/-- SRU reports that the open sale has left OPEN (R67): a waiting capture ends ABANDONED, a held read is discarded. -/
def leftOpen (s : State) : State := discardHeld (endCapture .abandoned s)

/-! ## Restarts and FAULT -/

/-- The causes of a restart that return Zo to 0, Zi to unset and the tare to NONE (R6). -/
def RestartCause.clears : RestartCause → Bool
  | .reset => true
  | .weighRestart => true
  | .calLeave => true
  | .testOn => false
  | .testOff => false
  | .calEnter => false

/-- The state until the refill ends (R6). -/
def RestartCause.refillState : RestartCause → ChannelState
  | .testOn => .test
  | .calEnter => .cal
  | .reset => .starting
  | .weighRestart => .starting
  | .calLeave => .starting
  | .testOff => .starting

/-- The channel restarted (R6): the ring empty, stability cleared, the watch restarted, no indication (R5). -/
def Wch.restarted (w : Wch) (cause : RestartCause) (clock : Nat) : Wch :=
  { w with
    state := cause.refillState
    faultCause := none
    ring := []
    count := 0
    refill := some cause
    watch := some (clock + 12500)
    sampleDue := clock + 2500
    last := none
    zo := if cause.clears then 0 else w.zo
    zi := if cause.clears then none else w.zi
    tare := if cause.clears then .none else w.tare
    stabRef := none
    stabCount := 0
    ind := ⟨false, false, false, false, false⟩
    zeroLimit := false
    zeroOut := false
    trackDue := none
    interlock := false }

/-- A restart (R6): a waiting capture ends with FAULT first (R22), and ACP hears of the empty slot once the channel has
left RUNNING (log 22). -/
def restart (cause : RestartCause) (s : State) : State :=
  let ended := endCapture .fault s
  let again := { ended with wch := ended.wch.restarted cause ended.clock }
  if s.wch.capture.isSome then captureEmptied again else again

/-- The name that CAL reports for an averaged step. -/
def CalStep.name : CalStep → CalStepName
  | .zero => .zero
  | .span _ => .span

/-- A step in progress ends with a result, and CAL is raised for it (R47, R51). -/
def endStep (result : CalResult) (s : State) : State :=
  match s.wch.cal.bind CalContext.run with
  | none => s
  | some r =>
    raise (.cal r.step.name result)
      { s with wch := { s.wch with cal := s.wch.cal.map fun c => { c with run := none } } }

/-- The channel in FAULT (R7). -/
def Wch.faulted (w : Wch) (cause : FaultCause) : Wch :=
  { w with
    state := .fault
    faultCause := some cause
    refill := none
    watch := none
    tare := .none
    trackDue := none
    zeroOut := false
    testOffset := none
    cal := none }

/-- The channel enters FAULT, or takes the newer cause when it is there already (R7). -/
def enterFault (cause : FaultCause) (s : State) : State :=
  if s.wch.state = .fault then { s with wch := { s.wch with faultCause := some cause } }
  else
    let ended := endStep .aborted (endCapture .fault s)
    let faulted := { ended with wch := ended.wch.faulted cause }
    let told := if s.wch.capture.isSome then captureEmptied faulted else faulted
    raiseWeight (if s.wch.state = .cal then holdLifted told else told)

/-- CAL is left (R47): a step ends ABORTED, the context is dropped, the channel restarts, and the till's hold lifts. -/
def leaveCal (s : State) : State :=
  let ended := endStep .aborted s
  holdLifted (restart .calLeave { ended with wch := { ended.wch with cal := none } })

end Sys2Proof.Machine
end

