-- ==== Sys2Proof/Machine/SaleOps.lean ====
section
/-! DEFINITION. The operations of the sale record unit: the slots (R58 to R60), lines and referrals (R62, R70, R71, R73),
settlement (R84), and the end of a card tender (R79). -/

namespace Sys2Proof.Machine

open Sys2Proof

/-! ## Slots and tags -/

/-- The sale of the open slot written. -/
def setOpen (o : Sale) (s : State) : State := { s with sru := { s.sru with openSlot := some o } }

/-- The tags of live sales (R58, R59). -/
def Sru.liveTags (u : Sru) : List Nat :=
  (u.openSlot.toList ++ u.closing.toList ++ u.stack).map Sale.tag

/-- A place of the suspended stack is reserved (R58). -/
def Sru.reserved (u : Sru) : Bool := u.closing.any fun o => o.closingKind == some .suspended

/-- One step of the next-tag counter, wrapping from 65,535 to 1 (R59). -/
def stepTag (t : Nat) : Nat := if t = 65535 then 1 else t + 1

/-- The counter's value, passed over values that live sales hold (R59). -/
def freeTag (live : List Nat) : Nat → Nat → Nat
  | 0, t => t
  | fuel + 1, t => if live.contains t then freeTag live fuel (stepTag t) else t

/-- The counter after a tag has been taken (R59). -/
def Sru.advanceTag (u : Sru) : Sru :=
  { u with nextTag := freeTag u.liveTags (u.liveTags.length + 1) (stepTag u.nextTag) }

/-- SALE is raised with the tag, the state and the receipt-incomplete flag (R61). -/
def raiseSale (o : Sale) (news : SaleNews) (s : State) : State := raise (.sale o.tag news o.incomplete) s

/-- The kind with which a sale of the open slot closes by itself (R60). -/
def Sale.closes (o : Sale) : Option ClosingKind :=
  match o.state with
  | .settled => some .settled
  | .aborted => some .aborted
  | .opened => none
  | .tendering => none
  | .authWait => none
  | .closing => none
  | .suspended => none

/-- A SETTLED or ABORTED sale of the open slot enters a free closing slot (R60), and the tables that wait for the open slot
swap (R182). -/
def enterClosing (s : State) : State :=
  match s.sru.closing, s.sru.openSlot with
  | none, some o =>
    match o.closes with
    | some k =>
      swapSlotTables { s with sru := { s.sru with
        openSlot := none
        closing := some { o with state := .closing, closingKind := some k } } }
    | none => s
  | _, _ => s

/-- The closing sale leaves the slot (R60): a SUSPENDED sale is pushed, another leaves the part. -/
def leaveClosing (s : State) : State :=
  match s.sru.closing with
  | none => s
  | some o =>
    if o.closingKind = some .suspended then
      raiseSale o (.live .suspended)
        { s with sru := { s.sru with
            closing := none
            stack := { o with state := .suspended, closingKind := none } :: s.sru.stack } }
    else raiseSale o .released { s with sru := { s.sru with closing := none } }

/-- PEN reports that the cut after the last print line of the sale of a tag has completed (R60, R134). -/
def cutCompleted (tag : Nat) (s : State) : State :=
  if s.sru.closing.map Sale.tag = some tag then composerFill (enterClosing (leaveClosing s)) else s

/-- PRINT_DISCARD ends the closing sale (R60, R141). -/
def discardClosing (s : State) : State :=
  match s.sru.closing with
  | none => s
  | some o =>
    enterClosing (leaveClosing { s with sru := { s.sru with
      closing := some (if o.closingKind = some .suspended then { o.requeue with incomplete := true }
                       else { o with incomplete := true }) } })

/-! ## Lines and referrals -/

/-- REFERRAL is raised with the outstanding line numbers (R73). -/
def raiseReferral (o : Sale) (s : State) : State := raise (.referral o.outstanding) s

/-- A referral is added for the line just appended (R73). -/
def addReferral (r : ReferralReason) (s : State) (o : Sale) : Sale :=
  { o with referrals := o.referrals ++ [⟨o.lastNumber, r, s.clock + s.lli.params.referralTimeout * 1000000⟩] }

/-- An admitted line is appended to the open sale, a referral is raised for a REFERRED one, and the composer acts (R62,
R73, R123). -/
def addLine (o : Sale) (l : Line) (r : Option ReferralReason) (s : State) : State :=
  match r with
  | none => composerAct (setOpen (o.append l) s)
  | some r =>
    composerAct (raiseReferral (addReferral r s (o.append l)) (setOpen (addReferral r s (o.append l)) s))

/-- The pricing of a capture result (R37): the state with a reason of referral, and the amount. -/
def weighedPricing (item : Option ItemEntry) (certified : Int) : Option ReferralReason × Nat :=
  match item with
  | none => (some .missing, 0)
  | some e =>
    if e.refer then (some .refer, 0)
    else if maxLineAmount < price certified e.unitPrice e.basis then (some .priceLimit, 0)
    else (none, price certified e.unitPrice e.basis)

/-- The WEIGHED line of a capture result (R37, R70). -/
def weighedLine (c : Capture) (g : Figures) : Line :=
  let p := weighedPricing c.item g.certified
  { Line.plain .weighed (if p.1.isSome then .referred else .posted) ((c.item.map ItemEntry.text).getD []) p.2 with
    plu := some c.plu
    mass := some ⟨g.gross, g.tare, g.certified, g.interval, c.generation⟩
    unitPrice := c.item.map ItemEntry.unitPrice
    basis := c.item.map ItemEntry.basis }

/-- SRU takes a capture result (R70): the line's number and state, or `none` for LIMIT. -/
def postWeighed (c : Capture) (g : Figures) (s : State) : State × Option (Nat × LineState) :=
  match s.openSale? with
  | none => (s, none)
  | some o =>
    let l := weighedLine c g
    if o.admits l then
      (addLine o l (weighedPricing c.item g.certified).1 s, some (o.lines.length + 1, l.state))
    else (s, none)

/-- SRU's answers to an EMBEDDED line offered (R71). -/
inductive Offer where
  | made (line : Nat)
  | state
  | limit
  deriving DecidableEq, Repr

/-- The EMBEDDED line of a PLU and an extracted price (R71). -/
def embeddedLine (item : Option ItemEntry) (plu amount : Nat) : Line :=
  match item with
  | some e => { Line.plain .embedded .posted e.text amount with plu := some plu }
  | none => { Line.plain .embedded .referred [] 0 with plu := some plu }

/-- CFL offers SRU an EMBEDDED line (R71). -/
def offerEmbedded (plu amount : Nat) (s : State) : State × Offer :=
  match s.openSale? with
  | none => (s, .state)
  | some o =>
    if maxLineAmount < amount then (s, .limit)
    else
      let l := embeddedLine (s.tbs.findItem plu) plu amount
      if o.admits l then
        (addLine o l (if l.state = .referred then some .missing else none) s, .made (o.lines.length + 1))
      else (s, .limit)

/-! ## Settlement and card tenders -/

/-- The sale becomes SETTLED (R84): its number, the totals write, the authorization for cash, SALE, and the closing slot;
the composer acts last (log 25). -/
def settle (o : Sale) (s : State) : State :=
  let total := o.itemTotal.toNat
  let settled := { o with state := .settled, saleNumber := s.sst.nextNumber total }
  let counted := setOpen settled (countSale total s)
  let issued :=
    if o.lines.any fun l => l.kind == .cash && l.state == .posted then issueAuth (.settledCash o.tag) counted else counted
  composerAct (enterClosing (raiseSale settled (.live .settled) issued))

/-- SDC clears the record for SRU (R101). -/
def clearCard (s : State) : State := { s with sdc := { s.sdc with slot := .empty } }

/-- The sale after a card tender that was not approved (R79): TENDERING with any tender line, else OPEN. -/
def Sale.declined (o : Sale) : Sale :=
  { o with
    cardTender := none
    state := if o.hasKind .cash || o.hasKind .card then .tendering else .opened }

/-- A card tender is declined (R79). -/
def declineCard (o : Sale) (s : State) : State := composerAct (clearCard (setOpen o.declined s))

end Sys2Proof.Machine
end

