-- ==== Sys2Proof/Machine/StripeOps.lean ====
section
/-! DEFINITION. The stripe decoder (chapter 5): the bit stage (R89 to R93), the character stage (R94 to R98) and the card
record slot (R99). -/

namespace Sys2Proof.Machine

open Sys2Proof

/-! ## The bit stage -/

/-- The decoder of a track. -/
def Sdc.decoder (d : Sdc) : Track → Decoder
  | .a => d.trackA
  | .b => d.trackB

/-- The decoder of a track set. -/
def Sdc.setDecoder (d : Sdc) (k : Track) (e : Decoder) : Sdc :=
  match k with
  | .a => { d with trackA := e }
  | .b => { d with trackB := e }

/-- A decoder that has left IDLE for a swipe, with its first transition or none (R89). -/
def Decoder.leadIn (first : Option Nat) : Decoder := { Decoder.idle with state := .leadin, lastTime := first }

/-- A bit is to be appended (R92). -/
def Decoder.append (d : Decoder) (b : Bool) : Decoder :=
  if d.buffer.length < 1024 then { d with buffer := d.buffer ++ [b] }
  else { d with status := some .overlength, state := .done }

/-- The eighth lead-in interval forms the cell estimate (R90). -/
def Decoder.formCell (d : Decoder) : Decoder :=
  if d.intervals < 8 then d
  else
    let c := d.leadSum / 8
    if 20 ≤ c ∧ c ≤ 2000 then { d with cell := some c, state := .bits, buffer := [], half := none }
    else { d with cell := some c, status := some .speed, state := .done }

/-- A lead-in interval (R90). -/
def Decoder.leadInterval (d : Decoder) (t : Nat) : Decoder :=
  { d with intervals := d.intervals + 1, leadSum := d.leadSum + t }.formCell

/-- An interval in BITS (R91): full and half cells, and the cell estimate that follows them. -/
def Decoder.bitInterval (d : Decoder) (t : Nat) : Decoder :=
  match d.cell with
  | none => d
  | some c =>
    if 3 * c ≤ 4 * t then
      match d.half with
      | none => { d with cell := some ((3 * c + t) / 4) }.append false
      | some _ => { d with status := some .badBits, state := .done }
    else
      match d.half with
      | none => { d with half := some t }
      | some h => { d with cell := some ((3 * c + h + t) / 4), half := none }.append true

/-- An interval ends on a track (R89). -/
def Decoder.interval (d : Decoder) (t : Nat) : Decoder :=
  match d.state with
  | .leadin => d.leadInterval t
  | .bits => d.bitInterval t
  | .idle => d
  | .done => d

/-- A transition at `time` on a track that takes part in a swipe: the first, or the end of an interval (R89). -/
def Decoder.transition (d : Decoder) (time : Nat) : Decoder :=
  match d.lastTime with
  | none => { d with lastTime := some time }
  | some last => { d.interval (time - last) with lastTime := some time }

/-- The end of a decoder's quiet time, if it has had a transition (R93). -/
def Decoder.quietEnd (d : Decoder) : Option Nat := d.lastTime.map fun t => t + max 20000 (4 * d.cell.getD 0)

/-- The swipe's end time (R93). -/
def Sdc.swipeEnds (d : Sdc) : Nat := max (d.trackA.quietEnd.getD 0) (d.trackB.quietEnd.getD 0)

/-- The swipe's end time recomputed (R93). -/
def Sdc.moveEnd (d : Sdc) : Sdc := { d with swipe := d.swipe.map fun w => { w with ends := d.swipeEnds } }

/-- Both decoders are IDLE (R89). -/
def Sdc.idle (d : Sdc) : Bool := d.trackA.state == .idle && d.trackB.state == .idle

/-- A transition starts a swipe: the format copies are taken, and both decoders leave IDLE (R89). -/
def Sdc.startSwipe (d : Sdc) (t : Tbs) (k : Track) (time : Nat) : Sdc :=
  ({ d with
     swipe := some ⟨t.findFormat .a, t.findFormat .b, t.cardFormat.generation, 0⟩
     trackA := Decoder.leadIn none
     trackB := Decoder.leadIn none }.setDecoder k (Decoder.leadIn (some time))).moveEnd

/-- A flux transition (R89 to R93). -/
def Sdc.flux (d : Sdc) (t : Tbs) (k : Track) (time : Nat) : Sdc :=
  if d.idle then d.startSwipe t k time
  else (d.setDecoder k ((d.decoder k).transition time)).moveEnd

/-! ## The character stage -/

/-- The value of data bits, least significant first (R94). -/
def bitsValue : List Bool → Nat
  | [] => 0
  | b :: bs => b.toNat + 2 * bitsValue bs

/-- The value of the character at the front of the bits, `w` its data width (R94). -/
def charValue (w : Nat) (bits : List Bool) : Nat := bitsValue (bits.take w)

/-- The character at the front has valid parity (R94). -/
def charParity (w : Nat) (bits : List Bool) : Bool := (bits.take (w + 1)).count true % 2 == 1

/-- The bits from the first start sentinel on (R95). -/
def findStart (w start : Nat) : List Bool → Option (List Bool)
  | [] => none
  | b :: bs =>
    if w + 1 ≤ (b :: bs).length ∧ charParity w (b :: bs) ∧ charValue w (b :: bs) = start then some (b :: bs)
    else findStart w start bs

/-- The text byte of a character's value (R94). -/
def charByte (w v : Nat) : Byte := BitVec.ofNat 8 (if w = 6 then 32 + v else 48 + v)

/-- The LRC after the characters read (R97). -/
def lrcStatus (w : Nat) (values : List Nat) (bits : List Bool) : TrackStatus :=
  if bits.length < w + 1 then .lrc
  else if charParity w bits && charValue w bits == values.foldl (· ^^^ ·) 0 then .ok
  else .lrc

/-- Characters read one after another (R96): the status, and the values read. The list `values` holds those before. -/
def readCharacters (e : FormatEntry) : Nat → List Nat → List Bool → TrackStatus × List Nat
  | 0, values, _ => (.noEnd, values)
  | fuel + 1, values, bits =>
    if bits.length < e.width + 1 then (.noEnd, values)
    else if !charParity e.width bits then (.parity values.length, values)
    else
      let read := values ++ [charValue e.width bits]
      if e.maxChars < read.length then (.noEnd, read)
      else if charValue e.width bits = e.stop then (lrcStatus e.width read (bits.drop (e.width + 1)), read)
      else readCharacters e fuel read (bits.drop (e.width + 1))

/-- The outcome from a start found (R96, R97): characters are kept with status OK alone. -/
def readTrack (e : FormatEntry) (dir : Direction) (bits : List Bool) : TrackOutcome :=
  let r := readCharacters e (bits.length + 1) [] bits
  ⟨r.1, some dir, if r.1 = .ok then r.2.map (charByte e.width) else []⟩

/-- The search forward, then in the reversed buffer (R95). -/
def searchTrack (e : FormatEntry) (buffer : List Bool) : TrackOutcome :=
  match findStart e.width e.start buffer with
  | some bits => readTrack e .forward bits
  | none =>
    match findStart e.width e.start buffer.reverse with
    | some bits => readTrack e .reverse bits
    | none => ⟨.noStart, none, []⟩

/-- A track's outcome at the end of the swipe (R97). -/
def Decoder.outcome (d : Decoder) (format : Option FormatEntry) : TrackOutcome :=
  match d.status with
  | some .speed => ⟨.speed, none, []⟩
  | some .badBits => ⟨.badBits, none, []⟩
  | some .overlength => ⟨.overlength, none, []⟩
  | none =>
    if d.buffer.length < 16 then ⟨.noData, none, []⟩
    else
      match format with
      | none => ⟨.noStart, none, []⟩
      | some e => searchTrack e d.buffer

/-- A digit's text byte. -/
def isDigit (b : Byte) : Bool := decide (48 ≤ b.toNat) && decide (b.toNat ≤ 57)

/-- The run of characters after the start sentinel and before the first field separator, if there is one (R98). -/
def accountRun (e : FormatEntry) (chars : List Byte) : Option (List Byte) :=
  let sep := charByte e.width e.separator
  if chars.tail.contains sep then some (chars.tail.takeWhile (· != sep)) else none

/-- The account of track B (R98). -/
def accountOf (format : Option FormatEntry) (o : TrackOutcome) : Option (List Byte) :=
  match format, o.status with
  | some e, .ok =>
    match accountRun e o.chars with
    | some run => if 12 ≤ run.length ∧ run.length ≤ 19 ∧ run.all isDigit then some run else none
    | none => none
  | _, _ => none

/-! ## The card record slot (R99) -/

/-- The swipe counter's next value (R99). -/
def nextSerial (n : Nat) : Nat := if n = 65535 then 1 else n + 1

/-- The record of a swipe with its serial (section 5.3). -/
def Swipe.record (w : Swipe) (serial : Nat) (a b : TrackOutcome) : CardRecord where
  serial     := serial
  generation := w.generation
  trackA     := a
  trackB     := b
  account    := accountOf w.formatB b

/-- A record enters the slot HELD, and CARD is raised (R99). -/
def holdRecord (w : Swipe) (a b : TrackOutcome) (s : State) : State :=
  raise (.card (nextSerial s.sdc.counter) a.status b.status)
    { s with sdc := { s.sdc with
      counter := nextSerial s.sdc.counter
      slot := .held (w.record (nextSerial s.sdc.counter) a b) (s.clock + s.lli.params.cardExpiry * 1000000) } }

/-- The slot receives the outcome of a swipe (R99). -/
def placeRecord (w : Swipe) (a b : TrackOutcome) (s : State) : State :=
  if a.status = .noData ∧ b.status = .noData then s
  else
    match s.sdc.slot with
    | .empty => holdRecord w a b s
    | .held _ _ => holdRecord w a b s
    | .bound _ => raise (.cardCleared .refused) s

/-- The decoders return to IDLE, and the swipe context is dropped (R93). -/
def Sdc.endSwipe (d : Sdc) : Sdc := { d with trackA := Decoder.idle, trackB := Decoder.idle, swipe := none }

/-- The end of a swipe (R93): the character stage, the slot, the decoders, and a swap that waited (R105). -/
def endSwipe (w : Swipe) (s : State) : State :=
  let placed := placeRecord w (s.sdc.trackA.outcome w.formatA) (s.sdc.trackB.outcome w.formatB) s
  trySwap .cardFormat { placed with sdc := placed.sdc.endSwipe }

/-- The record of a HELD or BOUND slot. -/
def CardSlot.record? : CardSlot → Option CardRecord
  | .empty => none
  | .held r _ => some r
  | .bound r => some r

end Sys2Proof.Machine
end

