-- ==== Sys2Proof/Machine/CodeFilter.lean ====
section
/-! DEFINITION. The code filter (R162 to R168): what is a read, matching it against the code table, the check digit, the
extracted fields, and the actions. -/

namespace Sys2Proof.Machine

open Sys2Proof

/-- The digits of a read: one symbology byte, then 1 to 20 digits (R162). -/
def readDigits (payload : List Byte) : Option (List Byte) :=
  match payload with
  | [] => none
  | _ :: ds => if 1 ≤ ds.length ∧ ds.length ≤ 20 ∧ ds.all isDigit then some ds else none

/-- An entry matches a read (R163). -/
def CodeEntry.fits (e : CodeEntry) (ds : List Byte) : Bool :=
  decide (e.lead.length ≤ ds.length) && ds.take e.lead.length == e.lead && (e.total == 0 || e.total == ds.length)

/-- An entry is chosen over another: a longer prefix, or the same with a fixed length over any (R163). -/
def CodeEntry.beats (e f : CodeEntry) : Bool :=
  decide (f.lead.length < e.lead.length) || (e.lead.length == f.lead.length && e.total != 0 && f.total == 0)

/-- The chosen entry of a read (R163). -/
def matchCode (table : List CodeEntry) (ds : List Byte) : Option CodeEntry :=
  (table.filter fun e => e.fits ds).foldl
    (fun best e =>
      match best with
      | none => some e
      | some f => if e.beats f then some e else some f) none

/-- The number a digit's text byte stands for. -/
def digitValue (b : Byte) : Nat := b.toNat - 48

/-- The weighted sum of digits from the right, weights 3 and 1 in turn (R164). -/
def weightedSum : Nat → List Byte → Nat
  | _, [] => 0
  | w, d :: ds => w * digitValue d + weightedSum (4 - w) ds

/-- The last digit of a read is its check digit (R164). -/
def checkDigit (ds : List Byte) : Bool :=
  match ds.reverse with
  | [] => false
  | last :: others => digitValue last == (10 - weightedSum 3 others % 10) % 10

/-- A field of a read, a decimal number; `none` when it reaches past the last digit (R164). -/
def readField (ds : List Byte) (f : Nat × Nat) : Option Nat :=
  if f.1 - 1 + f.2 ≤ ds.length then
    some (((ds.drop (f.1 - 1)).take f.2).foldl (fun n d => 10 * n + digitValue d) 0)
  else none

/-- What CFL does with a read (R163 to R168). -/
inductive ReadAction where
  | forward
  | block (r : BlockReason)
  | weigh (plu : Nat)
  | embedded (plu price : Nat)
  deriving DecidableEq, Repr

/-- A read with the fields that its action uses, or forwarded when one is missing or the PLU is 0 (R164). -/
def extract (e : CodeEntry) (ds : List Byte) : ReadAction :=
  match e.action with
  | .forward => .forward
  | .block => .block .table
  | .weigh =>
    match e.plu.bind (readField ds) with
    | some p => if p = 0 then .forward else .weigh p
    | none => .forward
  | .embedded =>
    match e.plu.bind (readField ds), e.price.bind (readField ds) with
    | some p, some a => if p = 0 then .forward else .embedded p a
    | _, _ => .forward

/-- The action of a read under a code table (R163, R164). -/
def codeAction (table : List CodeEntry) (ds : List Byte) : ReadAction :=
  match matchCode table ds with
  | none => .forward
  | some e => if e.check && !checkDigit ds then .block .check else extract e ds

/-! ## The actions -/

/-- A frame is placed in the accessory part unchanged (R162, R194). -/
def passUp (f : AccFrame) (s : State) : State := { s with lli := { s.lli with accUps := s.lli.accUps ++ [f] } }

/-- A blocked read is counted, up to 65,535 (R165). -/
def blockRead (unit : Nat) (r : BlockReason) (s : State) : State :=
  raiseAccessory .block unit (some r) none { s with acp := { s.acp with blocked := min 65535 (s.acp.blocked + 1) } }

/-- A WEIGH read (R166, R167). -/
def weighRead (f : AccFrame) (plu : Nat) (s : State) : State :=
  if s.openSale?.isNone then passUp f s
  else
    match captureRefusal plu s with
    | none => raiseAccessory .scanConsumed f.unit none none (beginCapture plu .scan s)
    | some .busy => { s with acp := { s.acp with held := some ⟨f, plu⟩ } }
    | some _ => passUp f s

/-- An EMBEDDED read (R168). -/
def embeddedRead (f : AccFrame) (plu amount : Nat) (s : State) : State :=
  match (offerEmbedded plu amount s).2 with
  | .made n => raiseAccessory .scanConsumed f.unit none (some n) (offerEmbedded plu amount s).1
  | .state => passUp f s
  | .limit => passUp f s

/-- CFL takes a read (R163 to R168). -/
def filterRead (f : AccFrame) (ds : List Byte) (s : State) : State :=
  match codeAction s.tbs.code.active ds with
  | .forward => passUp f s
  | .block r => blockRead f.unit r s
  | .weigh plu => weighRead f plu s
  | .embedded plu amount => embeddedRead f plu amount s

/-- An ACC_UP frame of a unit is routed (R162). -/
def routeUp (f : AccFrame) (s : State) : State :=
  if (s.acp.units.get f.unit).role = .scanner ∧ s.lli.lane = .ready then
    match readDigits f.payload with
    | some ds => filterRead f ds s
    | none => passUp f s
  else passUp f s

end Sys2Proof.Machine
end

