-- ==== Sys2Proof/Machine/AccessoryOps.lean ====
section
/-! DEFINITION. The accessory port (R157 to R161, R169, R170): roles, presence, rounds and visits, the downstream queue and
the display mirror. -/

namespace Sys2Proof.Machine

open Sys2Proof

/-- The unit numbers in order (R159). -/
def unitNumbers : List Nat := [1, 2, 3, 4]

/-- The unit that holds a role, if any (R158). -/
def Units.holder (u : Units) (r : Role) : Option Nat := unitNumbers.find? fun n => (u.get n).role == r

/-! ## The mirror timer (R169) -/

/-- The mirror timer should run: *display mirror* is on and the DISPLAY unit is PRESENT (R169). -/
def State.mirrorRuns (s : State) : Bool :=
  s.lli.params.displayMirror && (s.acp.units.holder .display).any fun n => (s.acp.units.get n).presence == .present

/-- The mirror timer starts or stops when its condition has come or gone (R169). -/
def mirrorSync (s : State) : State :=
  if s.mirrorRuns then
    { s with acp := { s.acp with mirrorDue := some (s.acp.mirrorDue.getD (s.clock + 200000)) } }
  else { s with acp := { s.acp with mirrorDue := none, lastSent := false } }

/-! ## Presence (R160) -/

/-- A unit's presence and miss count set. -/
def setPresence (n : Nat) (p : Presence) (misses : Nat) (s : State) : State :=
  { s with acp := { s.acp with units := s.acp.units.set n { s.acp.units.get n with presence := p, misses := misses } } }

/-- A unit's frames leave the downstream queue. -/
def dropFrames (n : Nat) (s : State) : State :=
  { s with acp := { s.acp with queue := s.acp.queue.filter fun f => f.unit != n } }

/-- A unit becomes PRESENT (R160). -/
def becomePresent (n : Nat) (s : State) : State :=
  mirrorSync (raiseAccessory .presence n none none (setPresence n .present 0 s))

/-- A unit becomes ABSENT: its frames are discarded, and DISCARD is the detail that stands (R160). -/
def becomeAbsent (n : Nat) (s : State) : State :=
  mirrorSync (raiseAccessory .discard n none none
    (dropFrames n (raiseAccessory .presence n none none (setPresence n .absent 0 s))))

/-- An answer at a visit (R160). -/
def noteAnswer (n : Nat) (s : State) : State :=
  match (s.acp.units.get n).presence with
  | .unknown => becomePresent n s
  | .absent => becomePresent n s
  | .present => setPresence n .present 0 s

/-- A miss at a visit (R160). -/
def noteMiss (n : Nat) (s : State) : State :=
  match (s.acp.units.get n).presence with
  | .unknown => becomeAbsent n s
  | .present =>
    if 3 ≤ (s.acp.units.get n).misses + 1 then becomeAbsent n s
    else setPresence n .present ((s.acp.units.get n).misses + 1) s
  | .absent => s

/-! ## Rounds and visits (R159) -/

/-- ACP skips a unit when it comes to it (R159), or visits it from the next round on (R158, R167). -/
def State.skips (s : State) (n : Nat) : Bool :=
  (s.acp.units.get n).role == .none || s.acp.later.contains n ||
  ((s.acp.units.get n).role == .scanner && s.acp.held.isSome) ||
  decide (24 ≤ s.lli.accUps.length)

/-- A unit's first frame in the downstream queue: its mirror frame, else its oldest (R161). -/
def firstFrame (q : List DownFrame) (n : Nat) : Option DownFrame :=
  match q.find? fun f => f.unit == n && f.mirror with
  | some f => some f
  | none => q.find? fun f => f.unit == n

/-- A visit sends the unit its first frame, or a poll (R157, R159); its bytes are `DownFrame.bytes`. -/
def visit (n : Nat) (s : State) : State :=
  match firstFrame s.acp.queue n with
  | some f => { s with acp := { s.acp with queue := s.acp.queue.erase f, visit := some f } }
  | none => { s with acp := { s.acp with visit := some ⟨n, 0, [], false⟩ } }

/-- The round goes on with the units that are left (R159). -/
def visitFrom : List Nat → State → State
  | [], s => { s with acp := { s.acp with visit := none } }
  | n :: rest, s => if s.skips n then visitFrom rest s else visit n s

/-- The round goes on to the units after this one. -/
def visitAfter (n : Nat) (s : State) : State := visitFrom (unitNumbers.filter fun m => decide (n < m)) s

/-! ## Frames from the terminal (R161) -/

/-- An ACC_DOWN frame from the terminal arrives (R161). -/
def downArrives (unit : Nat) (tag : Byte) (payload : List Byte) (s : State) : State :=
  if (s.acp.units.get unit).role = .none ∨ (s.acp.units.get unit).presence = .absent then
    raiseAccessory .discard unit none none s
  else if 16 ≤ s.acp.queue.length then linkError s
  else { s with acp := { s.acp with queue := s.acp.queue ++ [⟨unit, tag, payload, false⟩] } }

/-! ## The mirror (R169, R170) -/

/-- The weight is showing (R169). -/
def State.showing (s : State) : Bool :=
  s.wch.state == .test || s.wch.tare != .none || s.figures?.any (fun g => g.certified != 0) || s.wch.ind.overload ||
  s.wch.ind.underload

/-- The text of a mirror frame (R169). -/
def State.mirrorText (s : State) : List Byte :=
  if s.wch.state = .test then ascii "TEST"
  else if s.wch.ind.overload then ascii "OVERLOAD"
  else if s.wch.ind.underload then ascii "UNDERLOAD"
  else
    match s.figures? with
    | none => ascii "------"
    | some g => (if s.wch.tare = .none then [] else ascii "NET ") ++ massText g.certified ++ ascii " kg"

/-- A mirror frame enters the queue (R170): in the place of one that stands, ahead of the rest, or not at all. -/
def placeMirror (f : DownFrame) (q : List DownFrame) : List DownFrame :=
  if q.any DownFrame.mirror then q.map fun g => if g.mirror then f else g
  else if q.length < 16 then f :: q
  else q

/-- A mirror frame for the DISPLAY unit is made (R169, R170). -/
def makeMirror (s : State) : State :=
  match s.acp.units.holder .display with
  | none => s
  | some n => { s with acp := { s.acp with queue := placeMirror ⟨n, 0, s.mirrorText, true⟩ s.acp.queue } }

/-- The mirror's work at an expiry (R169). -/
def mirrorTick (s : State) : State :=
  if s.showing then { makeMirror s with acp := { (makeMirror s).acp with lastSent := true } }
  else if s.acp.lastSent then { makeMirror s with acp := { (makeMirror s).acp with lastSent := false } }
  else s

/-! ## Roles (R158) -/

/-- A role byte; above 3 it is OTHER (R197). -/
def roleOf : Nat → Role
  | 0 => .none
  | 1 => .scanner
  | 2 => .display
  | _ => .other

/-- SCANNER and DISPLAY stay with the lowest unit that is given them; the others take OTHER (R158). -/
def resolveRoles : List Role → List Role → List Role
  | _, [] => []
  | taken, r :: rs =>
    (if (r = .scanner ∨ r = .display) ∧ taken.contains r then Role.other else r) :: resolveRoles (r :: taken) rs

/-- The roles that a value of *accessory roles* gives (R158, R197): its first byte is unit 1's. -/
def rolesOf (v : BitVec 32) : List Role :=
  resolveRoles [] [roleOf (v.extractLsb' 24 8).toNat, roleOf (v.extractLsb' 16 8).toNat,
    roleOf (v.extractLsb' 8 8).toNat, roleOf (v.extractLsb' 0 8).toNat]

/-- A unit's role set; to NONE and from NONE its presence starts again (R158). -/
def AccUnit.take (a : AccUnit) (r : Role) : AccUnit :=
  if r = .none ∨ a.role = .none then ⟨r, .unknown, 0⟩ else { a with role := r }

/-- One unit's role changes: frames of a unit given NONE go, and a mirror frame of a unit that was DISPLAY; a unit that had
NONE is visited from the next round (R158). A presence that becomes UNKNOWN so raises no ACCESSORY (log 49). -/
def changeRole (n : Nat) (r : Role) (s : State) : State :=
  let old := (s.acp.units.get n).role
  { s with acp := { s.acp with
      units := s.acp.units.set n ((s.acp.units.get n).take r)
      queue := s.acp.queue.filter fun f =>
        !(f.unit == n && (r == .none || (f.mirror && old == .display && r != .display)))
      later := if old = .none then s.acp.later.insert n else s.acp.later } }

/-- The roles of all units change (R158); the units in order. -/
def changeRoles (rs : List Role) (s : State) : State :=
  (unitNumbers.zip rs).foldl (fun t p => if (t.acp.units.get p.1).role = p.2 then t else changeRole p.1 p.2 t) s

/-- A visit to a unit whose role is now NONE ends, and the round goes on (R158). -/
def endVisit (s : State) : State :=
  match s.acp.visit with
  | some f => if (s.acp.units.get f.unit).role = .none then visitAfter f.unit s else s
  | none => s

/-- SET_PARAM sets *accessory roles* (R158): a held scan is discarded when SCANNER has left its unit; the roles change first,
so that HELD_DISCARDED carries the presence after the change (log 54). -/
def setRoles (rs : List Role) (s : State) : State :=
  let t := changeRoles rs s
  endVisit (mirrorSync
    (if s.acp.units.holder .scanner = t.acp.units.holder .scanner then t else discardHeld t))

end Sys2Proof.Machine
end

