-- ==== Sys2Proof/Machine/ReceiveOps.lean ====
section
/-! DEFINITION. The receive assembler and what becomes of a complete frame (R157, R191 to R193). -/

namespace Sys2Proof.Machine

open Sys2Proof

/-- A complete frame with a good check. -/
structure Frame where
  unit    : Nat
  kind    : Nat
  tag     : Byte
  payload : List Byte
  deriving DecidableEq, Repr

/-- The bytes from the unit byte on as a frame (R190); the length is at least 3 in BODY. -/
def frameOf (body : List Byte) : Frame where
  unit    := (body.getD 0 0).toNat
  kind    := (body.getD 1 0).toNat
  tag     := body.getD 2 0
  payload := body.drop 3

/-- The frame check is right: over the length byte through the last payload byte (R190, R191). -/
def checkGood (length : Nat) (body check : List Byte) : Bool :=
  natBytes 2 (crc16 (BitVec.ofNat 8 length :: body)).toNat == check

/-- The assembler hunts again. -/
def Lli.hunt (l : Lli) : Lli := { l with phase := .hunt, rxLength := 0, rxBody := [], rxCheck := [] }

/-- A partial frame is discarded: the flag is set, and the assembler hunts (R191). -/
def discardFrame (s : State) : State := linkError { s with lli := s.lli.hunt }

/-- A complete frame from the terminal is taken by its unit and kind (R192). -/
def takeFrame (f : Frame) (s : State) : State :=
  if f.unit = 0 ∧ f.kind = 1 then arriveRequest (parseRequest f.tag f.payload) f.tag s
  else if 1 ≤ f.unit ∧ f.unit ≤ 4 ∧ f.kind = 4 then downArrives f.unit f.tag f.payload s
  else linkError s

/-- The second check byte has arrived (R191). -/
def endFrame (check : List Byte) (s : State) : State :=
  if checkGood s.lli.rxLength s.lli.rxBody check then takeFrame (frameOf s.lli.rxBody) { s with lli := s.lli.hunt }
  else discardFrame s

/-- One byte arrives on the lane link (R191). -/
def receiveByte (s : State) (b : Byte) : State :=
  match s.lli.phase with
  | .hunt => if b = 0xA5 then { s with lli := { s.lli with phase := .length } } else s
  | .length =>
    if 3 ≤ b.toNat ∧ b.toNat ≤ 253 then
      { s with lli := { s.lli with phase := .body, rxLength := b.toNat, rxBody := [], rxCheck := [] } }
    else discardFrame s
  | .body =>
    { s with lli := { s.lli with
      rxBody := s.lli.rxBody ++ [b]
      phase := if s.lli.rxBody.length + 1 < s.lli.rxLength then .body else .check } }
  | .check =>
    if s.lli.rxCheck.isEmpty then { s with lli := { s.lli with rxCheck := [b] } }
    else endFrame (s.lli.rxCheck ++ [b]) s

/-- Bytes arrive one after another. -/
def receive (bytes : List Byte) (s : State) : State := bytes.foldl receiveByte s

/-! ## The accessory port (R157) -/

/-- An assembler for an answer (log 13): the frames found, and the bytes of the one in progress. -/
structure Finder where
  phase  : RxPhase
  length : Nat
  body   : List Byte
  check  : List Byte
  found  : List Frame

/-- One byte of the accessory port; a bad frame is discarded (R157, R191). -/
def Finder.byte (a : Finder) (b : Byte) : Finder :=
  match a.phase with
  | .hunt => if b = 0xA5 then { a with phase := .length } else a
  | .length =>
    if 3 ≤ b.toNat ∧ b.toNat ≤ 253 then { a with phase := .body, length := b.toNat, body := [], check := [] }
    else { a with phase := .hunt }
  | .body => { a with body := a.body ++ [b], phase := if a.body.length + 1 < a.length then .body else .check }
  | .check =>
    if a.check.isEmpty then { a with check := [b] }
    else
      { a with
        phase := .hunt
        found := if checkGood a.length a.body (a.check ++ [b]) then a.found ++ [frameOf a.body] else a.found }

/-- The frames that bytes from the accessory port make. -/
def framesIn (bytes : List Byte) : List Frame := (bytes.foldl Finder.byte ⟨.hunt, 0, [], [], []⟩).found

/-- The answer of the unit visited, if the bytes hold one (R157). -/
def answerIn (unit : Nat) (bytes : List Byte) : Option AccFrame :=
  ((framesIn bytes).find? fun f => f.kind == 5 && f.unit == unit).map fun f => ⟨f.unit, f.tag, f.payload⟩

/-- An answer is taken: presence, then the frame's way up unless it is empty, then the round goes on (R159, R160, R162). That
the presence comes first is the model's choice (log 55). -/
def takeAnswer (f : AccFrame) (s : State) : State :=
  let noted := noteAnswer f.unit s
  visitAfter f.unit (if f.payload.isEmpty then noted else routeUp f noted)

end Sys2Proof.Machine
end

