-- ==== Sys2Proof/Machine/AccessoryPort.lean ====
section
/-! DEFINITION. The meanings of the accessory port's commands (chapter 9). -/

namespace Sys2Proof.Machine

open Sys2Proof

/-- A round starts once the one before has ended and 20 ms have passed since its start (R159). -/
def roundStarts (s : State) : State :=
  match s.acp.visit with
  | some _ => s
  | none =>
    let t := reach s.acp.roundDue s
    visitFrom unitNumbers { t with acp := { t.acp with roundDue := t.clock + 20000, later := [] } }

/-- ROUND_START (R159). -/
def execRoundStart (s : State) : Host.Outcome State Fault Refusal := event roundStarts s

/-- Bytes come from the unit visited; without an answer among them they are discarded (R157). -/
def answerArrives (bytes : List Byte) (s : State) : State :=
  match s.acp.visit with
  | none => s
  | some v =>
    match answerIn v.unit bytes with
    | some f => takeAnswer f s
    | none => s

/-- ACCESSORY_ANSWER (R157, R162). -/
def execAccessoryAnswer (bytes : List Byte) (s : State) : Host.Outcome State Fault Refusal := event (answerArrives bytes) s

/-- No answer has come: a miss, and the round goes on (R157, R159, R160). -/
def answerMissed (s : State) : State :=
  match s.acp.visit with
  | none => s
  | some v => visitAfter v.unit (noteMiss v.unit s)

/-- ANSWER_TIMEOUT (R160). -/
def execAnswerTimeout (s : State) : Host.Outcome State Fault Refusal := event answerMissed s

/-- The mirror timer expires and runs on (R169). -/
def mirrorExpires (s : State) : State :=
  match s.acp.mirrorDue with
  | none => s
  | some due => mirrorTick (reach due { s with acp := { s.acp with mirrorDue := some (due + 200000) } })

/-- MIRROR_TIMER (R169). -/
def execMirrorTimer (s : State) : Host.Outcome State Fault Refusal := event mirrorExpires s

/-- A unit in ACCESSORY_READ (R171). -/
def State.unitFields (s : State) (n : Nat) : List Field :=
  [.enum (s.acp.units.get n).role.code, .enum (s.acp.units.get n).presence.code, .int 1 (s.acp.units.get n).misses,
   .int 1 (s.acp.queue.filter fun f => f.unit == n).length, .flag (s.acp.queue.any fun f => f.unit == n && f.mirror)]

/-- ACCESSORY_READ's response (R171); the held read is its symbology byte and digits, and the four units have no count byte
(log 60). -/
def accessoryRead (s : State) : State × Reply :=
  okay (unitNumbers.flatMap s.unitFields ++ [.int 1 (16 - s.acp.queue.length : Nat)] ++
    optFields s.acp.held (fun h => [.text h.frame.payload, .int 4 h.plu]) ++
    [.flag s.acp.mirrorDue.isSome, .flag s.acp.lastSent, .int 2 s.acp.blocked, .int 2 s.tbs.code.generation]) s

/-- ACCESSORY_READ (R171). -/
def execAccessoryRead (tag : Byte) (s : State) : Host.Outcome State Fault Refusal :=
  request (.accessoryRead tag) tag accessoryRead s

end Sys2Proof.Machine
end

