-- ==== Sys2Proof/Machine/ResetOps.lean ====
section
/-! DEFINITION. The ends of a sealed write (R52, R55, R56), and the reset of the part (R28, R54, R88, R106, R119, R145, R156,
R172, R187, R188). -/

namespace Sys2Proof.Machine

open Sys2Proof

/-! ## A reset takes effect -/

/-- The check of the store (R54): the array is read into the image, and its CRC compared; a pending write is dropped (R56). -/
def Sst.checked (t : Sst) : Sst where
  array         := t.array
  word          := t.word
  image         := t.array
  state         := if integrityWord t.array = t.word then .intact else .damaged
  inFlight      := none
  pendingTotals := false

/-- A free number for figure `k`, of `bytes` bytes, of an array cut off in a write (R54, log 9). -/
def torn (n k bytes : Nat) : Nat := Config.tornFigure n k % 256 ^ bytes

/-- A free number of a signed figure of 4 bytes (log 9). -/
def tornInt (n k : Nat) : Int := (torn n k 4 : Int) - 2 ^ 31

/-- The array after the `n`-th free choice (R54, log 9): every figure free in its bytes. -/
def tornFigures (n : Nat) : SealedFigures where
  record      := ⟨tornInt n 0, tornInt n 1, torn n 2 2, torn n 3 2, torn n 4 1, torn n 5 2, torn n 6 1⟩
  calCounter  := torn n 7 2
  saleCounter := torn n 8 4
  grandTotal  := torn n 9 8

/-- An integrity word that does not match the torn figures, else free (R54, log 9). -/
def tornWord (n : Nat) : BitVec 16 :=
  integrityWord (tornFigures n) + 1 + BitVec.ofNat 16 (Config.tornFigure n 10 % 65535)

/-- A power reset cuts off a write in flight (R54, R56). -/
def cutOffWrite (s : State) : State :=
  if s.sst.inFlight.isSome then
    { s with
      free := s.free + 1
      sst := { s.sst with array := tornFigures s.free, word := tornWord s.free } }
  else s

/-- A table's banks after a link reset (R187). -/
def TableBank.afterLink {α : Type} (b : TableBank α) : TableBank α where
  active     := b.active
  load       := []
  loadState  := .empty
  generation := b.generation
  last       := none

/-- The table store after a link reset (R187). -/
def Tbs.afterLink (t : Tbs) : Tbs where
  item          := t.item.afterLink
  code          := t.code.afterLink
  font          := t.font.afterLink
  cardFormat    := t.cardFormat.afterLink
  headerTrailer := t.headerTrailer.afterLink
  session       := none

/-- Every block's reset values (R188); a link reset keeps the tables, the tag counter and the swipe counter (R59, R106,
R187). -/
def resetValues (cause : ResetCause) (pins : Pins) (s : State) : State where
  clock   := s.clock
  free    := s.free
  pins    := pins
  lli     := Lli.afterReset cause s.clock none []
  wch     := Wch.afterReset s.clock
  sst     := s.sst.checked
  sru     := Sru.afterReset (if cause = .link then s.sru.nextTag else 1)
  sdc     := Sdc.afterReset (if cause = .link then s.sdc.counter else 0)
  tlc     := Tlc.afterReset s.clock pins
  pen     := Pen.afterReset pins
  pbu     := Pbu.afterReset pins
  acp     := Acp.afterReset s.clock
  tbs     := if cause = .link then s.tbs.afterLink else Tbs.cleared
  pending := s.pending

/-- A notice raised where a condition holds. -/
def raiseIf (b : Bool) (f : State → State) (s : State) : State := if b then f s else s

/-- The notices that a reset's values call for (R188, R189); STORE for a DAMAGED store alone, also where a store in FAULT is
found INTACT (log 44). -/
def raiseResetNotices (cause : ResetCause) (s : State) : State :=
  raiseIf (s.pen.state != .idle) raisePrinter
    (raiseIf s.tlc.switchOpen (raiseDrawer none)
      (raiseIf s.pbu.warning (raise (.supply true))
        (raiseIf (s.sst.state == .damaged) (raise (.store .damaged))
          (raise (.startup cause) s))))

/-- A reset takes effect (R188). -/
def resetPart (cause : ResetCause) (pins : Pins) (s : State) : State :=
  pump (raiseResetNotices cause (resetValues cause pins s))

/-! ## Resets that wait for a write (R56) -/

/-- The cause of a reset that takes effect with the end of the write in flight; a pin reset goes before a link reset
(log 10). A link reset whose response is still to be sent waits for that as well (R188). -/
def Lli.awaited (l : Lli) : Option ResetCause :=
  if l.pinReset then some .pin
  else if l.resetAnswer = .sent then some .link
  else none

/-! ## The end of a write -/

/-- The figures a write leaves in an array or an image (R55). -/
def WriteData.into (d : WriteData) (g : SealedFigures) : SealedFigures :=
  match d with
  | .calibration r n => { g with record := r, calCounter := n }
  | .totals n t => { g with saleCounter := n, grandTotal := t }
  | .whole g' => g'

/-- The image after a completed write: the record and counter of a commit become the written ones (R52); totals are ahead
of the array already (R57). -/
def WriteData.intoImage (d : WriteData) (g : SealedFigures) : SealedFigures :=
  match d with
  | .totals _ _ => g
  | .calibration r n => { g with record := r, calCounter := n }
  | .whole g' => g'

/-- The array with its integrity word, the image and the state after a completed write (R52, R55). -/
def Sst.complete (t : Sst) (d : WriteData) : Sst :=
  { t with
    array := d.into t.array
    word := integrityWord (d.into t.array)
    image := d.intoImage t.image
    state := if d.code = 2 then .intact else t.state
    inFlight := none }

/-- A commit that ended OK: the candidates are dropped, CAL is raised, and a pending leave takes effect (R52; log 23, 35). -/
def commitDone (s : State) : State :=
  let dropped := raise (.cal .commit .ok)
    { s with wch := { s.wch with cal := s.wch.cal.map fun c => { c with zero := none, span := none, ranges := none } } }
  if s.wch.state = .cal ∧ (s.wch.cal.any fun c => c.pendingLeave) then leaveCal dropped else dropped

/-- The array, the image and the commit at the completion of a write (R52, R55). -/
def writeDone (d : WriteData) (s : State) : State :=
  let t := { s with sst := s.sst.complete d }
  match d with
  | .totals _ _ => t
  | .calibration _ _ => commitDone t
  | .whole _ => commitDone (raise (.store .intact) t)

/-- A pending write starts when none is in flight and the supply warning is off (R55). -/
def startPending (s : State) : State :=
  if s.sst.pendingTotals && s.sst.inFlight.isNone && !s.pbu.warning then startTotals s else s

/-- The write timer expires (R55, R52): the store and the channel enter FAULT; the array and its word stay as they were
(log 43). -/
def writeFailed (w : Write) (s : State) : State :=
  let t := raise (.store .fault) { s with sst := { s.sst with state := .fault, inFlight := none, pendingTotals := false } }
  let f := enterFault .store t
  match w.data with
  | .totals _ _ => f
  | .calibration _ _ => raise (.cal .commit .writeTimeout) f
  | .whole _ => raise (.cal .commit .writeTimeout) f

/-- A pending write starts unless CONTROLLER_RESET has been taken: the link reset then awaits the end of the write, and the
write stays pending until the reset drops it, or until a supply warning that holds it clears (R55, R56; log 66). -/
def nextWrite (s : State) : State := if s.lli.resetAnswer = .none then startPending s else s

/-- A write ends one way or the other; a pending write does not start here. -/
def endWrite (how : WriteEnd) (w : Write) (s : State) : State :=
  match how with
  | .completed => writeDone w.data s
  | .timedOut => writeFailed w (reach w.due s)

/-- The event that ends the write in flight: a reset that waits for it takes effect, else a pending write starts
unless a reset awaits the end (R55, R56, log 8). -/
def writeEnds (how : WriteEnd) (pins : Pins) (s : State) : State :=
  match s.sst.inFlight with
  | none => s
  | some w =>
    match s.lli.awaited with
    | some cause => resetPart cause pins (endWrite how w s)
    | none => finish s (nextWrite (endWrite how w s))

end Sys2Proof.Machine
end

