-- ==== Sys2Proof/Machine/WeighUpdate.lean ====
section
/-! DEFINITION. The work of a sample and of a filtered update (R1, R3, R5, R10, R11, R17, R21, R23, R24, R26, R48), zero
tracking (R13), and what a change of Zo does to the stability reference (R10). -/

namespace Sys2Proof.Machine

open Sys2Proof

/-! ## The sample (R1, R24) -/

/-- The greatest and the least sample (R1). -/
def sampleHigh : Int := 8388607
def sampleLow : Int := -8388608

/-- The sample that enters the ring: in TEST, Zc + Zo + offset held to the converter's range (R24). -/
def State.substitute (s : State) (v : Int) : Int :=
  match s.wch.state, s.wch.testOffset with
  | .test, some o => max sampleLow (min sampleHigh (s.sst.image.record.zc + s.wch.zo + o))
  | _, _ => v

/-- A sample enters the ring, and the watch is restarted (R1, R2, R3). -/
def Wch.enter (w : Wch) (v : Int) (clock : Nat) : Wch :=
  { w with
    ring := (v :: w.ring).take 64
    count := min 64 (w.count + 1)
    watch := some (clock + 12500)
    sampleDue := clock + 2500 }

/-- A sample in an averaged step (R48): an extreme one starts the average again, another is added, up to 256. -/
def CalRun.add (r : CalRun) (v : Int) : CalRun :=
  if !r.averaging then r
  else if v = sampleHigh ∨ v = sampleLow then r.again
  else if r.count < 256 then { r with sum := r.sum + v, count := r.count + 1 }
  else r

/-- The step in progress takes a sample. -/
def CalContext.add (c : CalContext) (v : Int) : CalContext := { c with run := c.run.map fun r => r.add v }

/-! ## The filtered update (R3) -/

/-- F: the newest `n` samples, summed, divided by `n`, rounded half away from zero (R3). -/
def filteredValue (n : Nat) (ring : List Int) : Int := roundHalfAway (ring.take n).sum n

/-- The values of a filtered update (R3, R1, R30 to R33). -/
def formUpdate (s : State) : Update where
  f       := filteredValue s.lli.params.filterLength s.wch.ring
  oorHigh := (s.wch.ring.take s.lli.params.filterLength).contains sampleHigh
  oorLow  := (s.wch.ring.take s.lli.params.filterLength).contains sampleLow
  figures := s.record?.map fun r =>
    r.figures s.wch.zo s.wch.tare (filteredValue s.lli.params.filterLength s.wch.ring)

/-- What stability is judged on, and its band: g within 10 × e1, or F within 160 counts (R10). -/
def Update.judged (u : Update) (r : Option CalRecord) : Int × Nat :=
  match u.figures, r with
  | some g, some r => (g.gross, 10 * r.e1)
  | _, _ => (u.f, 160)

/-- The stability reference and count after an update (R10). -/
def Wch.judge (w : Wch) (value : Int) (band : Nat) : Wch :=
  if w.disturbed then { w with stabRef := some value, stabCount := 0 }
  else
    match w.stabRef with
    | none => { w with stabRef := some value, stabCount := 0 }
    | some ref =>
      if (value - ref).natAbs ≤ band then { w with stabCount := min 200 (w.stabCount + 1) }
      else { w with stabRef := some value, stabCount := 0 }

/-- |g| × 4 ≤ 10 × e1: the platter is within a quarter interval of zero (R17, R26). -/
def nearZero (g : Int) (e1 : Nat) : Bool := decide (g.natAbs * 4 ≤ 10 * e1)

/-- The bits that an update sets (R26, R34); without figures, OVERLOAD and UNDERLOAD by the samples alone (R34, R1), and the
bits of R18, R15 and R17 stand beside them as in every state (log 51). -/
def Update.indication (u : Update) (r : Option CalRecord) (stable : Bool) : Indication where
  stable    := stable
  motion    := !stable
  centre    :=
    match u.figures, r with
    | some g, some r => stable && nearZero g.gross r.e1
    | _, _ => false
  overload  :=
    u.oorHigh || (match u.figures, r with
                  | some g, some r => r.overload g.gross
                  | _, _ => false)
  underload :=
    u.oorLow || (match u.figures, r with
                 | some g, some r => r.underload g.gross
                 | _, _ => false)

/-- Stability, then the bits, and the update held as the latest (R3). -/
def State.indicate (s : State) (u : Update) : State :=
  let w := s.wch.judge (u.judged s.record?).1 (u.judged s.record?).2
  { s with wch := { w with
      last := some u
      ind := u.indication s.record? (decide (s.lli.params.stabilityCount ≤ w.stabCount)) } }

/-- The channel enters RUNNING, where the zero-tracking timer starts (R6, R11, R13). -/
def Wch.run (w : Wch) (clock : Nat) : Wch := { w with state := .running, zeroOut := false, trackDue := some (clock + 1000000) }

/-- The end of a refill: the state in which its update does its work (R5, R46). -/
def refillEnd (s : State) : State :=
  match s.wch.refill with
  | none => s
  | some cause =>
    if cause ≠ .calEnter ∧ s.sst.state ≠ .intact then enterFault .store s
    else if cause ≠ .calEnter ∧ s.record? = none then enterFault .record s
    else
      let w := { s.wch with refill := none }
      match cause with
      | .testOn => { s with wch := { w with state := .test } }
      | .calEnter => { s with wch := { w with state := .cal } }
      | .reset | .weighRestart | .testOff | .calLeave =>
        if w.zi.isSome then { s with wch := w.run s.clock } else { s with wch := { w with state := .zeroPending } }

/-! ## The checks of an update -/

/-- An update whose gross is not reported: one formed in ZERO_PENDING, once the channel is in RUNNING (R30; log 42). -/
def Update.unreported (u : Update) : Update := { u with figures := none }

/-- Initial zero (R11); the reference stays (log 19), and no mass figure stands until the next update (R30, log 42). -/
def initialZero (u : Update) (s : State) : State :=
  match s.wch.state, s.record? with
  | .zeroPending, some r =>
    if s.wch.ind.stable then
      if (u.f - r.zc).natAbs ≤ (r.counts r.max 10).natAbs then
        { s with wch := { s.wch.run s.clock with
            zo := u.f - r.zc, zi := some (u.f - r.zc), last := some u.unreported } }
      else { s with wch := { s.wch with zeroOut := true } }
    else s
  | _, _ => s

/-- A WEIGHED tare clears itself (R17; in TEST too by R24, log 20). -/
def autoClearTare (u : Update) (s : State) : State :=
  match s.wch.tare, u.figures, s.record? with
  | .weighed _, some g, some r =>
    if (s.wch.state = .running ∨ s.wch.state = .test) ∧ s.wch.capture = none ∧ s.wch.ind.stable = true ∧
        nearZero g.gross r.e1 = true then
      { s with wch := { s.wch with tare := .none } }
    else s
  | _, _, _ => s

/-- The capture can complete at this update (R21, R35). -/
def captureReady (g : Figures) (r : CalRecord) (w : Wch) : Bool :=
  w.state == .running && w.ind.stable && !w.disturbed && !w.ind.overload && !w.ind.underload && r.inBand g.certified &&
  !w.interlock

/-- The tare record after a completed capture (R21): ITEM lapses, PRESET clears, WEIGHED stays. -/
def Tare.afterCapture : Tare → Tare
  | .weighed t => .weighed t
  | .none => .none
  | .preset _ => .none
  | .item _ => .none

/-- The result of a capture that SRU has answered (R21). -/
def captureNews (c : Capture) (a : Option (Nat × LineState)) : Notice :=
  match a with
  | none => .capture c.source .limit none
  | some (n, .referred) => .capture c.source .referred (some n)
  | some (n, _) => .capture c.source .ok (some n)

/-- WCH's part of a completion, whatever SRU returned (R21). -/
def closeCapture (c : Capture) (a : Option (Nat × LineState)) (s : State) : State :=
  raise (captureNews c a) { s with wch := { s.wch with
    tare := s.wch.tare.afterCapture
    interlock := true
    capture := none
    lateCancel := true } }

/-- A waiting capture completes when it can (R21): SRU takes the result, then the slot empties, and ACP hears of it. -/
def completeCapture (u : Update) (s : State) : State :=
  match s.wch.capture, u.figures, s.record? with
  | some c, some g, some r =>
    if captureReady g r s.wch then
      captureEmptied (closeCapture c (postWeighed c g s).2 (postWeighed c g s).1)
    else s
  | _, _, _ => s

/-- The interlock clears (R23). -/
def clearInterlock (u : Update) (s : State) : State :=
  let light :=
    match u.figures, s.record? with
    | some g, some r => decide (g.certified < (r.min * 10 : Nat))
    | _, _ => false
  if light || s.wch.ind.underload then { s with wch := { s.wch with interlock := false } } else s

/-! ## Averaged calibration steps (R48, R49) -/

/-- A step after its update: WAIT_STABLE may end, and an average in motion or disturbed starts again (R48). -/
def CalRun.watch (r : CalRun) (u : Update) (w : Wch) : CalRun :=
  if r.averaging then (if w.ind.motion || w.disturbed then r.again else r)
  else if w.ind.stable && !w.disturbed && !u.oorHigh && !u.oorLow then { r with averaging := true, sum := 0, count := 0 }
  else r

/-- The average of 256 samples (R48). -/
def CalRun.average (r : CalRun) : Int := roundHalfAway r.sum 256

/-- A step's candidate and its result (R48, R49). -/
def CalContext.complete (c : CalContext) (r : CalRun) : CalContext × CalResult :=
  match r.step with
  | .zero => ({ c with run := none, zero := some r.average }, .ok)
  | .span m =>
    if (m * 10 : Nat) ≤ r.average - c.zero.getD 0 then
      ({ c with run := none, span := some (r.average - c.zero.getD 0, m) }, .ok)
    else ({ c with run := none, span := none }, .spanLow)

/-- The averaged step's part of an update (R48, R49). -/
def averageStep (u : Update) (s : State) : State :=
  match s.wch.cal with
  | none => s
  | some c =>
    match c.run with
    | none => s
    | some r =>
      let r' := r.watch u s.wch
      if r.averaging ∧ r'.averaging ∧ 256 ≤ r'.count then
        raise (.cal r.step.name (c.complete r').2) { s with wch := { s.wch with cal := some (c.complete r').1 } }
      else { s with wch := { s.wch with cal := some { c with run := some r' } } }

/-- The checks that an update runs once its bits stand (R3). -/
def updateChecks (u : Update) (s : State) : State :=
  averageStep u (clearInterlock u (completeCapture u (autoClearTare u (initialZero u s))))

/-- A filtered update (R3): the refill's end first, then F and what follows from it. -/
def filteredUpdate (s : State) : State :=
  let r := refillEnd s
  if r.wch.state = .fault then r else updateChecks (formUpdate r) (r.indicate (formUpdate r))

/-- A sample enters the ring, and a filtered update follows when the ring holds enough (R1, R3). -/
def takeSample (v : Int) (s : State) : State :=
  let e := { s with wch := { s.wch.enter (s.substitute v) s.clock with
    cal := s.wch.cal.map fun c => c.add (s.substitute v) } }
  if s.lli.params.filterLength ≤ e.wch.count then filteredUpdate e else e

/-! ## Changes of Zo in RUNNING (R10, R12, R13) -/

/-- Zo changed, the reference moved by what the change does to g at the current F (R10). -/
def Wch.moveZero (w : Wch) (r : CalRecord) (zo f : Int) : Wch :=
  { w with zo := zo, stabRef := w.stabRef.map fun ref => ref + (r.gross zo f - r.gross w.zo f) }

/-- The zero band: the counts of Max / 50 grams (R11). -/
def CalRecord.zeroBand (r : CalRecord) : Nat := (r.counts r.max 50).natAbs

/-- Zo after one tracking step (R13): c, or L with the sign of c. -/
def CalRecord.trackedZero (r : CalRecord) (zo gross : Int) : Int :=
  let c := r.counts gross 10
  let l := r.counts r.e1 2
  zo + (if l < c then l else if c < -l then -l else c)

/-- One tracking step (R13): held to the nearest edge of the band with the zero-limit bit set, the bit cleared inside. -/
def Wch.track (w : Wch) (r : CalRecord) (zi f gross : Int) : Wch :=
  let zo := r.trackedZero w.zo gross
  let band : Int := r.zeroBand
  if zi + band < zo then { w.moveZero r (zi + band) f with zeroLimit := true }
  else if zo < zi - band then { w.moveZero r (zi - band) f with zeroLimit := true }
  else { w.moveZero r zo f with zeroLimit := if zo = zi + band ∨ zo = zi - band then w.zeroLimit else false }

/-- Tracking takes its step when its conditions hold at the latest update (R13): the stable bit and the gross are that update's,
the window, the tare and the capture those of the expiry (R17, R18; log 52). -/
def trackZero (s : State) : State :=
  match s.wch.last, s.wch.last.bind Update.figures, s.wch.zi, s.record? with
  | some u, some g, some zi, some r =>
    if s.wch.stable && !s.wch.disturbed && s.wch.tare == .none && s.wch.capture.isNone &&
        decide (g.gross.natAbs ≤ 5 * r.e1) then
      { s with wch := s.wch.track r zi u.f g.gross }
    else s
  | _, _, _, _ => s

end Sys2Proof.Machine
end

