-- ==== Sys2Proof/Machine/Weighing.lean ====
section
/-! DEFINITION. The meanings of the weighing channel's commands (chapter 1). -/

namespace Sys2Proof.Machine

open Sys2Proof

/-! ## Events -/

/-- A sample read (R1): discarded in FAULT; else it comes no earlier than it falls due (log 4). -/
def sampleRead (v : Int) (s : State) : State :=
  if s.wch.state = .fault then s else takeSample v (reach s.wch.sampleDue s)

/-- SAMPLE (R1). -/
def execSample (v : Int) (s : State) : Host.Outcome State Fault Refusal := event (sampleRead v) s

/-- The converter watch expires (R2). -/
def watchExpires (s : State) : State :=
  match s.wch.watch with
  | some due => if s.wch.state = .fault then s else enterFault .converter (reach due s)
  | none => s

/-- CONVERTER_WATCH (R2). -/
def execConverterWatch (s : State) : Host.Outcome State Fault Refusal := event watchExpires s

/-- The zero-tracking timer expires and runs on (R13). -/
def trackingExpires (s : State) : State :=
  match s.wch.trackDue with
  | some due =>
    if s.wch.state = .running then
      trackZero (reach due { s with wch := { s.wch with trackDue := some (due + 1000000) } })
    else s
  | none => s

/-- ZERO_TRACKING_EXPIRY (R13). -/
def execZeroTrackingExpiry (s : State) : Host.Outcome State Fault Refusal := event trackingExpires s

/-- The capture timer expires (R22). -/
def captureTimeout (s : State) : State :=
  match s.wch.capture with
  | some c => finishCapture .timeout (reach c.due s)
  | none => s

/-- CAPTURE_TIMER_EXPIRY (R22). -/
def execCaptureTimerExpiry (s : State) : Host.Outcome State Fault Refusal := event captureTimeout s

/-- The window's closing time is reached (R18). -/
def windowCloses (s : State) : State :=
  match s.wch.window with
  | .opened (some due) => { reach due s with wch := { s.wch with window := .closed } }
  | .opened none => s
  | .closed => s

/-- DISTURBANCE_WINDOW_CLOSE (R18). -/
def execDisturbanceWindowClose (s : State) : Host.Outcome State Fault Refusal := event windowCloses s

/-! ## Requests -/

/-- WEIGH_RESTART's effect (R8). -/
def weighRestart (s : State) : State × Reply :=
  if s.wch.state = .test ∨ s.wch.state = .cal then refuse .state s else okay [] (restart .weighRestart s)

/-- WEIGH_RESTART (R8). -/
def execWeighRestart (tag : Byte) (s : State) : Host.Outcome State Fault Refusal :=
  request (.weighRestart tag) tag weighRestart s

/-- WEIGH_ZERO's effect (R12). -/
def weighZero (s : State) : State × Reply :=
  if s.wch.state ≠ .running then refuse .state s
  else if s.wch.capture.isSome then refuse .busy s
  else if s.wch.tare ≠ .none then refuse .state s
  else if s.wch.disturbed || !s.wch.stable then refuse .state s
  else
    match s.wch.last, s.wch.zi, s.record? with
    | some u, some zi, some r =>
      if u.oorHigh || u.oorLow then refuse .state s
      else if r.zeroBand < (u.f - r.zc - zi).natAbs then refuse .range s
      else okay [] { s with wch := { s.wch.moveZero r (u.f - r.zc) u.f with zeroLimit := false } }
    | _, _, _ => refuse .state s

/-- WEIGH_ZERO (R12). -/
def execWeighZero (tag : Byte) (s : State) : Host.Outcome State Fault Refusal := request (.weighZero tag) tag weighZero s

/-- A tare set by request; WEIGHT is raised, and the response carries the tare in grams (R14, R15). -/
def setTare (t : Tare) (s : State) : State × Reply :=
  okay [.int 2 (t.value / 10 : Nat)] (raiseWeight { s with wch := { s.wch with tare := t } })

/-- WEIGH_TARE's effect (R14); where no gross stands since initial zero, none is above 0 (log 42). -/
def weighTare (s : State) : State × Reply :=
  if s.wch.state ≠ .running then refuse .state s
  else if s.wch.capture.isSome then refuse .busy s
  else if s.wch.disturbed || !s.wch.stable then refuse .state s
  else if s.wch.ind.overload || s.wch.ind.underload then refuse .range s
  else
    match s.wch.last.bind Update.figures, s.record? with
    | some g, some r =>
      if g.gross ≤ 0 then refuse .range s
      else if (r.max1 * 10 : Nat) < g.gross then refuse .range s
      else if roundHalfAway g.gross (10 * r.e1) ≤ 0 then refuse .range s
      else setTare (.weighed (10 * r.e1 * (roundHalfAway g.gross (10 * r.e1)).toNat)) s
    | _, _ => refuse .range s

/-- WEIGH_TARE (R14). -/
def execWeighTare (tag : Byte) (s : State) : Host.Outcome State Fault Refusal := request (.weighTare tag) tag weighTare s

/-- WEIGH_PRESET_TARE's effect (R15). -/
def weighPresetTare (grams : Nat) (s : State) : State × Reply :=
  if s.wch.state ≠ .running then refuse .state s
  else if s.wch.capture.isSome then refuse .busy s
  else
    match s.record? with
    | some r =>
      if r.roundTare grams = 0 then refuse .range s
      else setTare (.preset (min (r.roundTare grams) r.max1 * 10)) s
    | none => refuse .state s

/-- WEIGH_PRESET_TARE (R15). -/
def execWeighPresetTare (tag : Byte) (grams : Nat) (s : State) : Host.Outcome State Fault Refusal :=
  request (.weighPresetTare tag grams) tag (weighPresetTare grams) s

/-- WEIGH_CLEAR_TARE's effect (R15). -/
def weighClearTare (s : State) : State × Reply :=
  if s.wch.state = .cal then refuse .state s
  else if s.wch.capture.isSome then refuse .busy s
  else okay [] { s with wch := { s.wch with tare := .none } }

/-- WEIGH_CLEAR_TARE (R15). -/
def execWeighClearTare (tag : Byte) (s : State) : Host.Outcome State Fault Refusal :=
  request (.weighClearTare tag) tag weighClearTare s

/-- WEIGH_CAPTURE's effect (R19, R16). -/
def weighCapture (tag : Byte) (plu : Nat) (s : State) : State × Reply :=
  match captureRefusal plu s with
  | some r => refuse r s
  | none => accept (beginCapture plu (.request tag) s)

/-- WEIGH_CAPTURE (R19). -/
def execWeighCapture (tag : Byte) (plu : Nat) (s : State) : Host.Outcome State Fault Refusal :=
  request (.weighCapture tag plu) tag (weighCapture tag plu) s

/-- WEIGH_CANCEL's effect (R22). -/
def weighCancel (s : State) : State × Reply :=
  if s.wch.capture.isSome then okay [] (finishCapture .cancelled s)
  else if s.wch.lateCancel then refuse .tooLate s
  else refuse .state s

/-- WEIGH_CANCEL (R22). -/
def execWeighCancel (tag : Byte) (s : State) : Host.Outcome State Fault Refusal :=
  request (.weighCancel tag) tag weighCancel s

/-- WEIGH_TEST on's effect (R24). -/
def weighTestOn (offset : Int) (s : State) : State × Reply :=
  if s.slotsEmpty ∧ (s.wch.state = .running ∨ s.wch.state = .test) then
    okay [] (restart .testOn { s with wch := { s.wch with testOffset := some offset } })
  else refuse .state s

/-- WEIGH_TEST_ON (R24). -/
def execWeighTestOn (tag : Byte) (offset : Int) (s : State) : Host.Outcome State Fault Refusal :=
  request (.weighTestOn tag offset) tag (weighTestOn offset) s

/-- WEIGH_TEST off's effect (R25). -/
def weighTestOff (s : State) : State × Reply :=
  if s.wch.state = .test then
    okay [] (restart .testOff { s with wch := { s.wch with testOffset := none } })
  else refuse .state s

/-- WEIGH_TEST_OFF (R25). -/
def execWeighTestOff (tag : Byte) (s : State) : Host.Outcome State Fault Refusal :=
  request (.weighTestOff tag) tag weighTestOff s

/-- A tare record's kind, and its value unless it is NONE (section 1.6, R43). -/
def Tare.fields (t : Tare) : List Field :=
  [.enum t.code] ++ (if t = .none then [.flag false] else [.flag true, .int 4 t.value])

/-- The figures of WEIGH_READ (R27, R43): each absent or present; a tare with the figures it was held at. -/
def State.figureFields (s : State) : List Field :=
  optFields s.filtered? (fun f => [.int 4 f]) ++ optFields s.figures? (fun g => [.int 4 g.gross]) ++
  optFields s.figures? (fun g => g.tare.fields) ++ optFields s.figures? (fun g => [.int 4 g.net]) ++
  optFields s.figures? (fun g => [.int 4 g.certified]) ++ optFields s.figures? (fun g => [.int 1 g.interval])

/-- The waiting capture: PLU, source and milliseconds left (R27). -/
def State.captureFields (s : State) : List Field :=
  optFields s.wch.capture fun c => [.int 4 c.plu, .enum c.source.code, .int 4 (msLeft s.clock c.due)]

/-- WEIGH_READ's response (R27). -/
def weighReport (s : State) : State × Reply :=
  okay ([.enum s.wch.state.code] ++ optFields s.wch.faultCause (fun c => [.enum c.code]) ++
    [bitsField s.wch.bits.toList] ++ s.figureFields ++ s.captureFields) s

/-- WEIGH_READ (R27). -/
def execWeighRead (tag : Byte) (s : State) : Host.Outcome State Fault Refusal := request (.weighRead tag) tag weighReport s

end Sys2Proof.Machine
end

