-- ==== Sys2Proof/Machine/Calibration.lean ====
section
/-! DEFINITION. The meanings of the commands of calibration and the sealed store (chapter 3). -/

namespace Sys2Proof.Machine

open Sys2Proof

/-! ## Events -/

/-- The switch opens (R44): outside CAL no effect, in CAL as CAL_LEAVE, or a pending leave while a commit is in flight. -/
def switchOpens (s : State) : State :=
  if s.wch.state ≠ .cal then s
  else if s.sst.commitInFlight then
    { s with wch := { s.wch with cal := s.wch.cal.map fun c => { c with pendingLeave := true } } }
  else raise (.cal .leave .ok) (leaveCal s)

/-- The debounced calibration switch changes (R44). -/
def calSwitchChanges (closed : Bool) (s : State) : State :=
  if s.wch.calSwitchClosed = closed then s
  else
    let t := { s with wch := { s.wch with calSwitchClosed := closed } }
    if closed then t else switchOpens t

/-- CALIBRATION_SWITCH_CHANGE (R44). -/
def execCalibrationSwitchChange (closed : Bool) (s : State) : Host.Outcome State Fault Refusal :=
  event (calSwitchChanges closed) s

/-- The step timer expires (R51). -/
def stepTimeout (s : State) : State :=
  match s.wch.cal.bind CalContext.run with
  | some r => endStep .timeout (reach r.due s)
  | none => s

/-- CAL_STEP_TIMEOUT (R51). -/
def execCalStepTimeout (s : State) : Host.Outcome State Fault Refusal := event stepTimeout s

/-- WRITE_COMPLETE (R55, R52, R56). -/
def execWriteComplete (s : State) : Host.Outcome State Fault Refusal := .next (writeEnds .completed s.pins s)

/-- WRITE_TIMEOUT (R55, R52, R56). -/
def execWriteTimeout (s : State) : Host.Outcome State Fault Refusal := .next (writeEnds .timedOut s.pins s)

/-! ## Requests -/

/-- The empty calibration context (R45). -/
def CalContext.empty : CalContext where
  run          := none
  zero         := none
  span         := none
  ranges       := none
  pendingLeave := false

/-- CAL_ENTER's effect (R46): the context, the restart, and the hold on the till (R109). -/
def calEnter (s : State) : State × Reply :=
  if !s.wch.calSwitchClosed then refuse .sealed s
  else if s.wch.state = .cal then refuse .state s
  else if s.sst.state = .fault then refuse .state s
  else if s.wch.state = .fault ∧ s.wch.faultCause = some .converter then refuse .state s
  else if s.wch.state = .test then refuse .state s
  else if !s.slotsEmpty then refuse .state s
  else if s.wch.capture.isSome then refuse .busy s
  else if s.sst.inFlight.isSome then refuse .busy s
  else okay [] (holdImposed (restart .calEnter { s with wch := { s.wch with cal := some CalContext.empty } }))

/-- CAL_ENTER (R46). -/
def execCalEnter (tag : Byte) (s : State) : Host.Outcome State Fault Refusal := request (.calEnter tag) tag calEnter s

/-- CAL_LEAVE's effect (R47). -/
def calLeave (s : State) : State × Reply :=
  if s.wch.state ≠ .cal then refuse .state s
  else if s.sst.commitInFlight then refuse .busy s
  else okay [] (leaveCal s)

/-- CAL_LEAVE (R47). -/
def execCalLeave (tag : Byte) (s : State) : Host.Outcome State Fault Refusal := request (.calLeave tag) tag calLeave s

/-- The conditions that CAL_ZERO, CAL_SPAN and CAL_RANGES share: switch, CAL, and no step or commit write (R48 to R50). -/
def calRefusal (s : State) : Option Reason :=
  if !s.wch.calSwitchClosed then some .sealed
  else if s.wch.state ≠ .cal then some .state
  else if (s.wch.cal.bind CalContext.run).isSome || s.sst.commitInFlight then some .busy
  else none

/-- A step begins in WAIT_STABLE with its 30 s timer (R48). -/
def beginStep (k : CalStep) (clock : Nat) : CalRun := ⟨k, false, 0, 0, clock + 30000000⟩

/-- The calibration context changed, where there is one. -/
def editCal (f : CalContext → CalContext) (s : State) : State :=
  { s with wch := { s.wch with cal := s.wch.cal.map f } }

/-- CAL_ZERO's effect (R48). -/
def calZero (s : State) : State × Reply :=
  match calRefusal s with
  | some r => refuse r s
  | none => accept (editCal (fun c => { c with zero := none, span := none, run := some (beginStep .zero s.clock) }) s)

/-- CAL_ZERO (R48). -/
def execCalZero (tag : Byte) (s : State) : Host.Outcome State Fault Refusal := request (.calZero tag) tag calZero s

/-- Max for the check of CAL_SPAN: the candidate's, else that of the record in the store when it is valid by R5, the store
being DAMAGED or not (R49, log 38). -/
def State.maxForSpan (s : State) : Option Nat :=
  match s.wch.cal.bind CalContext.ranges with
  | some r => some r.max
  | none => if s.sst.image.record.valid then some s.sst.image.record.max else none

/-- CAL_SPAN's effect (R49). -/
def calSpan (mcal : Nat) (s : State) : State × Reply :=
  match calRefusal s with
  | some r => refuse r s
  | none =>
    if (s.wch.cal.bind CalContext.zero).isNone then refuse .state s
    else if mcal < 1 ∨ 30000 < mcal then refuse .range s
    else if !s.maxForSpan.all (massFits mcal) then refuse .range s
    else accept (editCal (fun c => { c with span := none, run := some (beginStep (.span mcal) s.clock) }) s)

/-- CAL_SPAN (R49). -/
def execCalSpan (tag : Byte) (mcal : Nat) (s : State) : Host.Outcome State Fault Refusal :=
  request (.calSpan tag mcal) tag (calSpan mcal) s

/-- CAL_RANGES' effect (R50). -/
def calRanges (max1 e1 max e2 : Nat) (s : State) : State × Reply :=
  match calRefusal s with
  | some r => refuse r s
  | none =>
    if rangesValid max1 e1 max e2 then
      accept (raise (.cal .ranges .ok) (editCal (fun c => { c with ranges := some ⟨max1, e1, max, e2⟩ }) s))
    else refuse .range s

/-- CAL_RANGES (R50). -/
def execCalRanges (tag : Byte) (max1 e1 max e2 : Nat) (s : State) : Host.Outcome State Fault Refusal :=
  request (.calRanges tag max1 e1 max e2) tag (calRanges max1 e1 max e2) s

/-- The record that a commit writes (R52). -/
def commitRecord (zero : Int) (span : Int × Nat) (r : Ranges) : CalRecord := ⟨zero, span.1, span.2, r.max1, r.e1, r.max, r.e2⟩

/-- What a commit writes (R52): the whole of a DAMAGED store, else the record and the counter plus one, up to 65,535. -/
def State.commitData (s : State) (r : CalRecord) : WriteData :=
  if s.sst.state = .damaged then .whole ⟨r, 1, 0, 0⟩ else .calibration r (min 65535 (s.sst.array.calCounter + 1))

/-- CAL_COMMIT's effect (R52). -/
def calCommit (s : State) : State × Reply :=
  if !s.wch.calSwitchClosed then refuse .sealed s
  else if s.wch.state ≠ .cal then refuse .state s
  else if (s.wch.cal.bind CalContext.run).isSome then refuse .busy s
  else
    match s.wch.cal.bind CalContext.zero, s.wch.cal.bind CalContext.span, s.wch.cal.bind CalContext.ranges with
    | some z, some p, some g =>
      if !massFits p.2 g.max then refuse .range s
      else if s.sst.inFlight.isSome || s.sst.pendingTotals then refuse .busy s
      else if s.pbu.warning then refuse .busy s
      else accept (startWrite (s.commitData (commitRecord z p g)) s)
    | _, _, _ => refuse .state s

/-- CAL_COMMIT (R52). -/
def execCalCommit (tag : Byte) (s : State) : Host.Outcome State Fault Refusal := request (.calCommit tag) tag calCommit s

/-- A calibration record (R53). -/
def CalRecord.fields (r : CalRecord) : List Field :=
  [.int 4 r.zc, .int 4 r.sc, .int 2 r.mcal, .int 2 r.max1, .int 1 r.e1, .int 2 r.max, .int 1 r.e2]

/-- The calibration context in CAL: the step in progress, and the candidates present (R53); NONE, ZERO and SPAN are the
steps' numbers 0, 1 and 2 (log 17). -/
def CalContext.fields (c : CalContext) : List Field :=
  [.enum (match c.run with
          | none => 0
          | some r => r.step.name.code)] ++
  optFields c.zero (fun z => [.int 4 z]) ++ optFields c.span (fun p => [.int 4 p.1, .int 2 p.2]) ++
  optFields c.ranges (fun g => [.int 2 g.max1, .int 1 g.e1, .int 2 g.max, .int 1 g.e2])

/-- STORE_READ's response (R53); the sale counter and the grand total are unavailable together, with one presence byte for
both (log 47). -/
def storeRead (s : State) : State × Reply :=
  okay ([.enum s.sst.state.code] ++ s.sst.image.record.fields ++ [.int 2 s.sst.image.calCounter] ++
    optFields (if s.sst.state = .damaged then none else some s.sst.image)
      (fun g => [.int 4 g.saleCounter, .int 8 g.grandTotal]) ++
    optFields s.sst.inFlight (fun w => [.enum w.data.code]) ++
    optFields (if s.sst.pendingTotals then some () else none) (fun _ => [.enum 1]) ++
    [.flag (s.sst.pendingTotals && s.pbu.warning), .enum s.wch.calSwitchClosed.toNat] ++
    (if s.wch.state = .cal then optFields s.wch.cal CalContext.fields else [.flag false])) s

/-- STORE_READ (R53). -/
def execStoreRead (tag : Byte) (s : State) : Host.Outcome State Fault Refusal := request (.storeRead tag) tag storeRead s

end Sys2Proof.Machine
end

