-- ==== Sys2Proof/Machine/CardStripe.lean ====
section
/-! DEFINITION. The meanings of the stripe decoder's commands (chapter 5). -/

namespace Sys2Proof.Machine

open Sys2Proof

/-- A flux transition at a time of the 1 us timebase (R89 to R93), and a card format swap that it lets happen (R105). -/
def fluxTransition (k : Track) (time : Nat) (s : State) : State :=
  let t := reach time s
  trySwap .cardFormat { t with sdc := t.sdc.flux t.tbs k time }

/-- STRIPE_FLUX_TRANSITION (R89). -/
def execStripeFluxTransition (track : Track) (time : Nat) (s : State) : Host.Outcome State Fault Refusal :=
  event (fluxTransition track time) s

/-- The swipe's end time is reached (R93). -/
def swipeEnds (s : State) : State :=
  match s.sdc.swipe with
  | some w => endSwipe w (reach w.ends s)
  | none => s

/-- SWIPE_END (R93). -/
def execSwipeEnd (s : State) : Host.Outcome State Fault Refusal := event swipeEnds s

/-- The expiry timer of a HELD record expires (R100). -/
def recordExpires (s : State) : State :=
  match s.sdc.slot with
  | .held _ due => raise (.cardCleared .expired) (reach due { s with sdc := { s.sdc with slot := .empty } })
  | .empty => s
  | .bound _ => s

/-- CARD_RECORD_EXPIRY (R100). -/
def execCardRecordExpiry (s : State) : Host.Outcome State Fault Refusal := event recordExpires s

/-- A track of a card record (R102). -/
def TrackOutcome.fields (o : TrackOutcome) : List Field :=
  o.status.fields ++ optFields o.direction (fun d => [.enum d.code]) ++ [.text o.chars]

/-- A card record in full (R102). -/
def CardRecord.fields (r : CardRecord) : List Field :=
  [.int 2 r.serial, .int 2 r.generation] ++ r.trackA.fields ++ r.trackB.fields ++
  optFields r.account (fun a => [.text a])

/-- The due time of a HELD record's expiry timer. -/
def CardSlot.due? : CardSlot → Option Nat
  | .held _ due => some due
  | .empty => none
  | .bound _ => none

/-- CARD_READ's response (R102); the timer's milliseconds have a presence byte of their own after the record (log 47). -/
def cardRead (s : State) : State × Reply :=
  okay ([.enum s.sdc.slot.code, .int 2 s.sdc.counter] ++ optFields s.sdc.slot.record? CardRecord.fields ++
    optFields s.sdc.slot.due? (fun d => [.int 4 (msLeft s.clock d)]) ++
    [.enum s.sdc.trackA.state.code, .enum s.sdc.trackB.state.code]) s

/-- CARD_READ (R102). -/
def execCardRead (tag : Byte) (s : State) : Host.Outcome State Fault Refusal := request (.cardRead tag) tag cardRead s

/-- CARD_RELEASE's effect (R103). -/
def cardRelease (serial : Nat) (s : State) : State × Reply :=
  match s.sdc.slot with
  | .empty => refuse .tooLate s
  | .bound _ => refuse .state s
  | .held r _ =>
    if r.serial = serial then okay [] { s with sdc := { s.sdc with slot := .empty } } else refuse .tooLate s

/-- CARD_RELEASE (R103). -/
def execCardRelease (tag : Byte) (serial : Nat) (s : State) : Host.Outcome State Fault Refusal :=
  request (.cardRelease tag serial) tag (cardRelease serial) s

end Sys2Proof.Machine
end

