-- ==== Sys2Proof/Machine/ParamOps.lean ====
section
/-! DEFINITION. The parameters of R197: their names, ranges, and what setting one does (R4, R158, R169). -/

namespace Sys2Proof.Machine

open Sys2Proof

/-- The parameters of R197's table. -/
inductive Param where
  | filterLength | stabilityCount | captureTimeout | disturbanceSettle | cardExpiry | authTimeout | referralTimeout
  | drawerPulse | drawerConfirm | drawerOverdue | closeBeforeSale | printDensity | linePitch | amountDecimals
  | maskLeadDigits | displayMirror | accessoryRoles
  deriving DecidableEq, Repr

/-- The names of R197's table. -/
def paramNames : List (String × Param) :=
  [ ("FILTER_LENGTH", .filterLength), ("STABILITY_COUNT", .stabilityCount), ("CAPTURE_TIMEOUT", .captureTimeout),
    ("DISTURBANCE_SETTLE", .disturbanceSettle), ("CARD_EXPIRY", .cardExpiry), ("AUTH_TIMEOUT", .authTimeout),
    ("REFERRAL_TIMEOUT", .referralTimeout), ("DRAWER_PULSE", .drawerPulse), ("DRAWER_CONFIRM", .drawerConfirm),
    ("DRAWER_OVERDUE", .drawerOverdue), ("CLOSE_BEFORE_SALE", .closeBeforeSale), ("PRINT_DENSITY", .printDensity),
    ("LINE_PITCH", .linePitch), ("AMOUNT_DECIMALS", .amountDecimals), ("MASK_LEAD_DIGITS", .maskLeadDigits),
    ("DISPLAY_MIRROR", .displayMirror), ("ACCESSORY_ROLES", .accessoryRoles) ]

/-- The parameter of a name (R197). -/
def paramNamed (t : List Byte) : Option Param := (paramNames.find? fun p => ascii p.1 == t).map Prod.snd

/-- A value clamped to a range (R197). -/
def clamp (lo hi : Nat) (v : Int) : Nat := (max (lo : Int) (min (hi : Int) v)).toNat

/-- The listed filter length nearest the value, the greater where two are equally near (R197). -/
def nearestLength (v : Int) : Nat := if v < 12 then 8 else if v < 24 then 16 else if v < 48 then 32 else 64

/-- A parameter set to the value it takes; the roles are no field of `Params` (R197). -/
def Params.set (p : Params) (k : Param) (v : Int) : Params :=
  match k with
  | .filterLength => { p with filterLength := nearestLength v }
  | .stabilityCount => { p with stabilityCount := clamp 20 200 v }
  | .captureTimeout => { p with captureTimeout := clamp 500 10000 v }
  | .disturbanceSettle => { p with disturbanceSettle := clamp 50 500 v }
  | .cardExpiry => { p with cardExpiry := clamp 10 300 v }
  | .authTimeout => { p with authTimeout := clamp 30 300 v }
  | .referralTimeout => { p with referralTimeout := clamp 30 600 v }
  | .drawerPulse => { p with drawerPulse := clamp 20 200 v }
  | .drawerConfirm => { p with drawerConfirm := clamp 200 2000 v }
  | .drawerOverdue => { p with drawerOverdue := clamp 5 300 v }
  | .closeBeforeSale => { p with closeBeforeSale := v != 0 }
  | .printDensity => { p with printDensity := clamp 64 384 v }
  | .linePitch => { p with linePitch := clamp 24 48 v }
  | .amountDecimals => { p with amountDecimals := clamp 0 3 v }
  | .maskLeadDigits => { p with maskLeadDigits := clamp 0 6 v }
  | .displayMirror => { p with displayMirror := v != 0 }
  | .accessoryRoles => p

/-- The value in effect of a parameter, as its four bytes carry it (R197). -/
def State.param (s : State) : Param → List Field
  | .filterLength => [.int 4 s.lli.params.filterLength]
  | .stabilityCount => [.int 4 s.lli.params.stabilityCount]
  | .captureTimeout => [.int 4 s.lli.params.captureTimeout]
  | .disturbanceSettle => [.int 4 s.lli.params.disturbanceSettle]
  | .cardExpiry => [.int 4 s.lli.params.cardExpiry]
  | .authTimeout => [.int 4 s.lli.params.authTimeout]
  | .referralTimeout => [.int 4 s.lli.params.referralTimeout]
  | .drawerPulse => [.int 4 s.lli.params.drawerPulse]
  | .drawerConfirm => [.int 4 s.lli.params.drawerConfirm]
  | .drawerOverdue => [.int 4 s.lli.params.drawerOverdue]
  | .closeBeforeSale => [.int 4 s.lli.params.closeBeforeSale.toNat]
  | .printDensity => [.int 4 s.lli.params.printDensity]
  | .linePitch => [.int 4 s.lli.params.linePitch]
  | .amountDecimals => [.int 4 s.lli.params.amountDecimals]
  | .maskLeadDigits => [.int 4 s.lli.params.maskLeadDigits]
  | .displayMirror => [.int 4 s.lli.params.displayMirror.toNat]
  | .accessoryRoles => unitNumbers.map fun n => .enum (s.acp.units.get n).role.code

/-- A changed filter length clears stability (R4). -/
def Wch.relearn (w : Wch) : Wch := { w with stabRef := none, stabCount := 0 }

/-- What a parameter's new value does at once: stability for the filter length (R4), the roles (R158), the mirror (R169). -/
def setParam (k : Param) (v : BitVec 32) (s : State) : State :=
  let t := { s with lli := { s.lli with params := s.lli.params.set k v.toInt } }
  match k with
  | .accessoryRoles => setRoles (rolesOf v) s
  | .displayMirror => mirrorSync t
  | .filterLength =>
    if t.lli.params.filterLength = s.lli.params.filterLength then t else { t with wch := t.wch.relearn }
  | .stabilityCount | .captureTimeout | .disturbanceSettle | .cardExpiry | .authTimeout | .referralTimeout | .drawerPulse
  | .drawerConfirm | .drawerOverdue | .closeBeforeSale | .printDensity | .linePitch | .amountDecimals
  | .maskLeadDigits => t

end Sys2Proof.Machine
end

