-- ==== Sys2Proof/Machine/LaneLink.lean ====
section
/-! DEFINITION. The meanings of the resets and of the lane link's commands (chapter 11, R56). -/

namespace Sys2Proof.Machine

open Sys2Proof

/-! ## Resets (R188, R56) -/

/-- POWER_RESET (R188): at once; a write in flight is cut off (R54). -/
def execPowerReset (pins : Pins) (s : State) : Host.Outcome State Fault Refusal :=
  .next (resetPart .power pins (cutOffWrite s))

/-- PIN_RESET (R188): at once, or when the write in flight ends (R56). -/
def execPinReset (pins : Pins) (s : State) : Host.Outcome State Fault Refusal :=
  if s.sst.inFlight.isSome then .next { s with lli := { s.lli with pinReset := true } }
  else .next (resetPart .pin pins s)

/-- RESET_AFTER_WRITE (R56): the write in flight ends, and the reset that waits for it takes effect. -/
def execResetAfterWrite (how : WriteEnd) (pins : Pins) (s : State) : Host.Outcome State Fault Refusal :=
  if s.lli.awaited.isSome then .next (writeEnds how pins s) else .next s

/-- The link reset can take effect: the response of CONTROLLER_RESET goes out or has gone out, and no write is in flight
(R188). -/
def State.linkResetReady (s : State) : Bool :=
  s.sst.inFlight.isNone &&
  (s.lli.resetAnswer == .sent ||
   match s.lli.sending with
   | some (.response r) => r.ofReset
   | _ => false)

/-- LINK_RESET (R188): the last byte of CONTROLLER_RESET's response has been sent, and no write is in flight. -/
def execLinkReset (pins : Pins) (s : State) : Host.Outcome State Fault Refusal :=
  if s.linkResetReady then .next (resetPart .link pins s) else .next s

/-! ## Events -/

/-- The 1 s timer's expiry: STARTUP is raised again (R189). -/
def startupTimer (s : State) : State :=
  match s.lli.startupDue with
  | some due =>
    if s.lli.lane = .unconfigured then
      raise (.startup s.lli.resetCause)
        (reach due { s with lli := { s.lli with startupDue := some (due + 1000000) } })
    else s
  | none => s

/-- STARTUP_TIMER (R189). -/
def execStartupTimer (s : State) : Host.Outcome State Fault Refusal := event startupTimer s

/-- LANE_FRAME_RECEIVED (R191 to R193): the bytes pass through the assembler. -/
def execLaneFrameReceived (bytes : List Byte) (s : State) : Host.Outcome State Fault Refusal := event (receive bytes) s

/-- RECEIVE_GAP_TIMEOUT (R191): in any phase but HUNT the partial frame is discarded. -/
def execReceiveGapTimeout (s : State) : Host.Outcome State Fault Refusal :=
  event (fun s => if s.lli.phase = .hunt then s else discardFrame s) s

/-- A length byte outside 3 to 253 arrives in phase LENGTH (R191); in another phase, or in that range, it is not this
event. -/
def impossibleLength (length : Byte) (s : State) : State :=
  if s.lli.phase = .length ∧ ¬(3 ≤ length.toNat ∧ length.toNat ≤ 253) then discardFrame s else s

/-- IMPOSSIBLE_FRAME_LENGTH (R191). -/
def execImpossibleFrameLength (length : Byte) (s : State) : Host.Outcome State Fault Refusal :=
  event (impossibleLength length) s

/-- The end of a frame being sent: after the response of CONTROLLER_RESET the link reset may take effect (R188). -/
def transmitEnd (s : State) : State :=
  match s.lli.sending with
  | none => s
  | some f =>
    let ended := { s with lli := { s.lli with sending := none } }
    let ofReset :=
      match f with
      | .response r => r.ofReset
      | .notice _ => false
      | .accUp _ => false
    if ofReset then
      if s.sst.inFlight.isNone then resetPart .link s.pins ended
      else { ended with lli := { ended.lli with resetAnswer := .sent } }
    else pump ended

/-- TRANSMIT_END (R194, R188). -/
def execTransmitEnd (s : State) : Host.Outcome State Fault Refusal := .next (transmitEnd s)

/-! ## Requests -/

/-- The refusal of a payload that is no request: UNKNOWN, LENGTH, or a free reason (R193, log 2); a payload that is a
request is none of these. -/
def unknownReason (tag : Byte) (payload : List Byte) : Option Reason :=
  match parsePayload tag payload with
  | .request _ => none
  | .unknown => some .unknown
  | .badSize => some .length
  | .badSelector => some (Reason.pick (Config.badSelectorReason payload))

/-- UNKNOWN_REQUEST (R193). -/
def execUnknownRequest (tag : Byte) (payload : List Byte) (s : State) : Host.Outcome State Fault Refusal :=
  match unknownReason tag payload with
  | some r => request (.unknownRequest tag payload) tag (refuse r) s
  | none => .next s

/-- CONTROLLER_RESET is answered OK, and the router takes no further request (R188). -/
def controllerReset (s : State) : State × Reply := okay [] { s with lli := { s.lli with resetAnswer := .waiting } }

/-- CONTROLLER_RESET (R188). -/
def execControllerReset (tag : Byte) (s : State) : Host.Outcome State Fault Refusal :=
  .next (finish s (route (.controllerReset tag) tag true controllerReset s))

/-- LANE_START's effect (R189). -/
def laneStart (s : State) : State × Reply :=
  okay [] (if s.lli.lane = .ready then s
           else { s with lli := { s.lli with
             lane := .ready
             startupDue := none
             notices := s.lli.notices.filter fun n => n.kind != 1 } })

/-- LANE_START (R189). -/
def execLaneStart (tag : Byte) (s : State) : Host.Outcome State Fault Refusal := request (.laneStart tag) tag laneStart s

/-- SET_NOTICE_MASK's effect: OK with the mask in effect (R195). -/
def setNoticeMask (flags : Vector Bool 15) (s : State) : State × Reply :=
  okay (flags.toList.map Field.flag) { s with lli := { s.lli with mask := flags } }

/-- SET_NOTICE_MASK (R195). -/
def execSetNoticeMask (tag : Byte) (flags : Vector Bool 15) (s : State) : Host.Outcome State Fault Refusal :=
  request (.setNoticeMask tag flags) tag (setNoticeMask flags) s

/-- READ_EVENTS' effect: every detail in ascending kind number, and the flags cleared (R196, R165). -/
def readEvents (s : State) : State × Reply :=
  okay (listFields s.lli.notices fun n => .enum n.kind :: n.fields)
    { s with
      lli := { s.lli with notices := [] }
      acp := { s.acp with blocked := if s.lli.notices.any isAccessory then 0 else s.acp.blocked } }

/-- READ_EVENTS (R196). -/
def execReadEvents (tag : Byte) (s : State) : Host.Outcome State Fault Refusal :=
  request (.readEvents tag) tag readEvents s

/-- SET_PARAM's effect (R197). -/
def setParamNamed (name : List Byte) (value : BitVec 32) (s : State) : State × Reply :=
  match paramNamed name with
  | none => refuse .notFound s
  | some k => okay ((setParam k value s).param k) (setParam k value s)

/-- SET_PARAM (R197). -/
def execSetParam (tag : Byte) (name : List Byte) (value : BitVec 32) (s : State) : Host.Outcome State Fault Refusal :=
  request (.setParam tag name value) tag (setParamNamed name value) s

/-- GET_PARAM's effect (R197). -/
def getParam (name : List Byte) (s : State) : State × Reply :=
  match paramNamed name with
  | none => refuse .notFound s
  | some k => okay (s.param k) s

/-- GET_PARAM (R197). -/
def execGetParam (tag : Byte) (name : List Byte) (s : State) : Host.Outcome State Fault Refusal :=
  request (.getParam tag name) tag (getParam name) s

/-! ## LANE_STATUS (R198) -/

/-- The summary of WCH with the calibration switch (R27, R44). -/
def State.wchSummary (s : State) : List Field :=
  [.enum s.wch.state.code] ++ optFields s.wch.faultCause (fun c => [.enum c.code]) ++
  [bitsField s.wch.bits.toList, .flag s.wch.capture.isSome, .enum s.wch.calSwitchClosed.toNat]

/-- A slot with its sale's tag and state, or empty (R86). -/
def slotSummary (o : Option Sale) : List Field := optFields o fun o => [.int 2 o.tag, .enum o.state.code]

/-- The summary of SRU (R86). -/
def State.sruSummary (s : State) : List Field :=
  slotSummary s.sru.openSlot ++ slotSummary s.sru.closing ++
  [.int 1 s.sru.stack.length, .flag s.sru.reserved, .flag (s.sru.openSlot.any fun o => o.cardTender.isSome)]

/-- The summary of SDC (R102). -/
def State.sdcSummary (s : State) : List Field :=
  [.enum s.sdc.slot.code, .int 2 s.sdc.counter, .enum s.sdc.trackA.state.code, .enum s.sdc.trackB.state.code]

/-- The summaries of TLC, PEN and PBU (R118, R143, R155). -/
def State.driveSummary (s : State) : List Field :=
  [.enum s.tlc.state.code, .flag s.tlc.auth.isSome] ++ s.pen.state.fields ++
  [.int 1 (grantSum s.pbu.grants), .flag s.pbu.arbiter.isSome, .flag s.pbu.solenoidReq.isSome, .flag s.pbu.warning]

/-- The summary of ACP (R171). -/
def State.acpSummary (s : State) : List Field :=
  (unitNumbers.map fun n => .enum (s.acp.units.get n).presence.code) ++ [.flag s.acp.held.isSome]

/-- The five tables in the order of section 10.1. -/
def tableNames : List TableName := [.item, .code, .font, .cardFormat, .headerTrailer]

/-- The response of LANE_STATUS (R198); the request itself counts in the request queue (log 15), and the presences and the
generations have no count byte (log 60). -/
def State.laneStatus (s : State) : List Field :=
  [.enum s.lli.lane.code, .flag s.lli.linkError] ++ s.wchSummary ++ s.sruSummary ++ s.sdcSummary ++ s.driveSummary ++
  s.acpSummary ++ [.enum s.sst.state.code] ++ (tableNames.map fun n => .int 2 (s.tbs.generation n)) ++
  [.int 1 (s.lli.requests.length + 1 : Nat), .int 1 s.lli.responses.length, .int 1 s.lli.accUps.length]

/-- LANE_STATUS's effect: the link error flag clears once it is reported (R198). -/
def laneStatus (s : State) : State × Reply :=
  okay s.laneStatus { s with lli := { s.lli with linkError := false } }

/-- LANE_STATUS (R198). -/
def execLaneStatus (tag : Byte) (s : State) : Host.Outcome State Fault Refusal :=
  request (.laneStatus tag) tag laneStatus s

end Sys2Proof.Machine
end

