-- ==== Sys2Proof/Machine/PrintEvents.lean ====
section
/-! DEFINITION. What the printer does at the end of its work and when a sensor changes (R129, R132 to R134, R136 to R139). -/

namespace Sys2Proof.Machine

open Sys2Proof

/-! ## Glyph rows (R132) -/

/-- The row goes on after a strobe: its next phase is asked for, or its paper step is made (R132). -/
def nextPhase (rest : List Phase) (s : State) : State :=
  match rest with
  | [] => setPrinter (.printing [] (.stepping (s.clock + 1000))) s
  | p :: ps => placePhase false p.cost (setPrinter (.printing ps (.waiting p)) s)

/-- A strobe ends (R132, R153). -/
def phaseEnds (s : State) : State :=
  match s.pen.state with
  | .printing rest (.strobing _ due) =>
    let t := reach due s
    nextPhase rest { t with pbu := { t.pbu with strobe := false } }
  | _ => s

/-- A sale line is PRINTED (R129). -/
def Sale.markPrinted (o : Sale) (n : Nat) : Sale := o.edit n fun l => { l with print := .printed }

/-- The sale of a tag changed, in the closing or the open slot. -/
def Sru.editTagged (u : Sru) (tag : Nat) (f : Sale → Sale) : Sru :=
  { u with
    openSlot := u.openSlot.map fun o => if o.tag = tag then f o else o
    closing := u.closing.map fun o => if o.tag = tag then f o else o }

/-- A later print line of the same sale line waits (R129). -/
def linesWait (p : PrintLine) (q : List QueueEntry) : Bool :=
  q.any fun
    | .line r => r.saleTag == p.saleTag && r.line == p.line
    | .feed _ => false
    | .cut => false

/-- The sale line of a print line that has been printed becomes PRINTED when it was its last (R129). -/
def linePrinted (p : PrintLine) (s : State) : State :=
  match p.saleTag, p.line with
  | some t, some n =>
    if linesWait p s.pen.queue then s else { s with sru := s.sru.editTagged t fun o => o.markPrinted n }
  | _, _ => s

/-- The feed and the cut that a print line leaves when it leaves the queue (R133). -/
def Pen.lineLeft (p : Pen) (l : PrintLine) (pitch : Nat) : Pen :=
  if l.cutAfter then { p with feed := 96, owed := some l.saleTag }
  else { p with feed := min 255 (p.feed + (pitch - 24)) }

/-- A print line leaves the queue at the end of its last glyph row (R129, R133); the composer acts (R123). -/
def lineLeaves (l : PrintLine) (q : List QueueEntry) (s : State) : State :=
  composerFill (linePrinted l
    { s with pen := { s.pen with queue := q }.lineLeft l s.lli.params.linePitch })

/-- The head print line has one row more (R132). -/
def rowDone (s : State) : State :=
  match s.pen.queue with
  | .line l :: q =>
    if l.rows ≤ l.rowsDone + 1 then lineLeaves { l with rowsDone := l.rowsDone + 1 } q s
    else { s with pen := { s.pen with queue := .line { l with rowsDone := l.rowsDone + 1 } :: q } }
  | _ => s

/-- A glyph row's paper step ends (R132): the row is counted, its end reported, and the printer goes on. -/
def rowEnds (s : State) : State :=
  match s.pen.state with
  | .printing _ (.stepping due) =>
    let t := reach due s
    goOn (reportRowEnd (rowDone { t with pen := { t.pen with sinceGlyph := 0 } }))
  | _ => s

/-! ## Feed steps and cuts (R133, R134) -/

/-- A feed step ends (R133). -/
def feedEnds (s : State) : State :=
  match s.pen.state with
  | .feeding due =>
    let t := reach due s
    goOn { t with pen := { t.pen with feed := t.pen.feed - 1, sinceGlyph := min 255 (t.pen.sinceGlyph + 1) } }
  | _ => s

/-- A cutter cycle completes (R134): SRU hears of the cut of a sale, the owed cut clears, and the printer goes on. -/
def cycleCompletes (s : State) : State :=
  let reported :=
    match s.pen.owed with
    | some (some tag) => cutCompleted tag s
    | some none => s
    | none => s
  goOn { reported with pen := { reported.pen with owed := none } }

/-- The home switch shows a position, with the level that a reset would read (R120). -/
def setHome (home : Bool) (s : State) : State :=
  { s with pins := { s.pins with cutterHome := home }, pen := { s.pen with home := home } }

/-- The home switch shows HOME: a cycle that has shown AWAY completes (R134). -/
def homeShown (s : State) : State :=
  match s.pen.state with
  | .cutting _ true => cycleCompletes (setHome true s)
  | _ => setHome true s

/-- The home switch shows AWAY: a cycle in progress has shown it (R134). -/
def awayShown (s : State) : State :=
  match s.pen.state with
  | .cutting due _ => setPrinter (.cutting due true) (setHome false s)
  | _ => setHome false s

/-- The cutter timer expires (R134): the cut stays owed. -/
def cutterExpires (s : State) : State :=
  match s.pen.state with
  | .cutting due _ => enterHalt .cutter (reach due s)
  | _ => s

/-! ## Sensors (R136 to R139) -/

/-- A halt mark acts at once in IDLE, HOT_WAIT and HALTED SUPPLY, and waits otherwise (R137). -/
def markNow (s : State) : State :=
  match s.pen.state with
  | .idle => actMark s
  | .hotWait => actMark s
  | .halted .supply => actMark s
  | _ => s

/-- The paper-out sensor changes (R137). -/
def paperOutChanges (out : Bool) (s : State) : State :=
  if s.pen.paperOut = out then s
  else
    let t := { s with pins := { s.pins with paperOut := out }, pen := { s.pen with paperOut := out } }
    if out then markNow { t with pen := { t.pen with paperMark := true } } else t

/-- The cover-open sensor changes (R137). -/
def coverOpenChanges (opened : Bool) (s : State) : State :=
  if s.pen.coverOpen = opened then s
  else
    let t := { s with pins := { s.pins with coverOpen := opened }, pen := { s.pen with coverOpen := opened } }
    if opened then markNow { t with pen := { t.pen with coverMark := true } } else t

/-- The head-hot sensor changes (R136): a printer in HOT_WAIT goes on when the head is cool. -/
def headHotChanges (hot : Bool) (s : State) : State :=
  if s.pen.headHot = hot then s
  else
    let t := { s with pins := { s.pins with headHot := hot }, pen := { s.pen with headHot := hot } }
    if !hot && s.pen.state == .hotWait then goOn t else t

/-- The paper near-end sensor changes (R139). -/
def nearEndChanges (nearEnd : Bool) (s : State) : State :=
  if s.pen.nearEnd = nearEnd then s
  else raisePrinter { s with pins := { s.pins with nearEnd := nearEnd }, pen := { s.pen with nearEnd := nearEnd } }

/-- The supply warning comes on, as PEN takes it (R138). -/
def printerWarned (s : State) : State :=
  match s.pen.state with
  | .idle => enterHalt .supply s
  | .hotWait => enterHalt .supply s
  | _ => s

/-- The supply warning clears, as PEN takes it (R138). -/
def printerCleared (s : State) : State :=
  match s.pen.state with
  | .halted .supply => raisePrinter (goOn s)
  | _ => s

end Sys2Proof.Machine
end

