-- ==== Sys2Proof/Machine/Printing.lean ====
section
/-! DEFINITION. The meanings of the print engine's commands (chapter 7). -/

namespace Sys2Proof.Machine

open Sys2Proof

/-! ## Events -/

/-- PHASE_END (R132). -/
def execPhaseEnd (s : State) : Host.Outcome State Fault Refusal := event phaseEnds s

/-- ROW_END (R132). -/
def execRowEnd (s : State) : Host.Outcome State Fault Refusal := event rowEnds s

/-- FEED_STEP_END (R133). -/
def execFeedStepEnd (s : State) : Host.Outcome State Fault Refusal := event feedEnds s

/-- CUTTER_CYCLE_COMPLETE (R134): in a cycle that has shown AWAY, the switch shows HOME. -/
def execCutterCycleComplete (s : State) : Host.Outcome State Fault Refusal :=
  event (fun s =>
    match s.pen.state with
    | .cutting _ true => homeShown s
    | _ => s) s

/-- CUTTER_HOME_SWITCH_CHANGE (R120, R134). -/
def execCutterHomeSwitchChange (home : Bool) (s : State) : Host.Outcome State Fault Refusal :=
  event (fun s => if s.pen.home = home then s else if home then homeShown s else awayShown s) s

/-- CUTTER_TIMEOUT (R134). -/
def execCutterTimeout (s : State) : Host.Outcome State Fault Refusal := event cutterExpires s

/-- PAPER_OUT_CHANGE (R137). -/
def execPaperOutChange (out : Bool) (s : State) : Host.Outcome State Fault Refusal := event (paperOutChanges out) s

/-- COVER_OPEN_CHANGE (R137). -/
def execCoverOpenChange (opened : Bool) (s : State) : Host.Outcome State Fault Refusal := event (coverOpenChanges opened) s

/-- HEAD_HOT_CHANGE (R136). -/
def execHeadHotChange (hot : Bool) (s : State) : Host.Outcome State Fault Refusal := event (headHotChanges hot) s

/-- PAPER_NEAR_END_CHANGE (R139). -/
def execPaperNearEndChange (nearEnd : Bool) (s : State) : Host.Outcome State Fault Refusal := event (nearEndChanges nearEnd) s

/-! ## Resuming and discarding (R140, R141) -/

/-- Both halt marks are cleared. -/
def clearMarks (s : State) : State := { s with pen := { s.pen with paperMark := false, coverMark := false } }

/-- The printer leaves a halt by PRINT_RESUME (R140): under a warning the reason becomes SUPPLY, a CUTTER halt runs one
cycle, another goes on. -/
def resumeFrom (r : HaltReason) (s : State) : State :=
  if s.pbu.warning then setPrinter (.halted .supply) s
  else if r = .cutter then startCut s
  else goOn s

/-- PRINT_RESUME's effect (R140). -/
def printResume (s : State) : State × Reply :=
  match s.pen.state with
  | .halted r =>
    if r = .supply then refuse .state s
    else if s.pen.paperOut || s.pen.coverOpen then refuse .state s
    else okay [] (raisePrinter (resumeFrom r (clearMarks s)))
  | _ => refuse .state s

/-- PRINT_RESUME (R140). -/
def execPrintResume (tag : Byte) (s : State) : Host.Outcome State Fault Refusal := request (.printResume tag) tag printResume s

/-- Queue, feed, owed cut and marks given up (R141). -/
def Pen.discard (p : Pen) : Pen :=
  { p with queue := [], feed := 0, owed := none, paperMark := false, coverMark := false }

/-- The sale's part of a discard: the closing sale ends, or the open one's QUEUED lines return (R141, R60). -/
def discardSale (s : State) : State :=
  match s.sru.closing, s.sru.openSlot with
  | some _, _ => discardClosing s
  | none, some o =>
    { setOpen o.requeue s with
      pen := { s.pen with context := { s.pen.context with header := false } } }
  | none, none => s

/-- A font or header/trailer table waits to swap (R182). -/
def State.printTablesWait (s : State) : Bool :=
  s.tbs.font.loadState == .pending || s.tbs.headerTrailer.loadState == .pending

/-- The emptied queue lets a table swap, and the composer fills it: either may be first (R182, log 26). -/
def refill (s : State) : State :=
  if s.printTablesWait then
    if Config.swapBeforeComposer s.free then composerFill (swapPrintTables { s with free := s.free + 1 })
    else swapPrintTables (composerFill { s with free := s.free + 1 })
  else composerFill s

/-- The cause of a halt has cleared (R141). -/
def State.causeCleared (s : State) : HaltReason → Bool
  | .paperOut => !s.pen.paperOut && !s.pen.coverOpen
  | .coverOpen => !s.pen.paperOut && !s.pen.coverOpen
  | .cutter => s.pen.home
  | .supply => !s.pbu.warning

/-- What a halted printer was to print is given up (R141). -/
def discardPrinting (r : HaltReason) (s : State) : State :=
  let t := refill (discardSale { s with pen := s.pen.discard })
  if t.causeCleared r then raisePrinter (goOn t) else t

/-- PRINT_DISCARD's effect (R141). -/
def printDiscard (s : State) : State × Reply :=
  match s.pen.state with
  | .halted r => okay [] (discardPrinting r s)
  | _ => refuse .state s

/-- PRINT_DISCARD (R141). -/
def execPrintDiscard (tag : Byte) (s : State) : Host.Outcome State Fault Refusal :=
  request (.printDiscard tag) tag printDiscard s

/-! ## Printing outside sales (R142) -/

/-- An entry enters the tail of the queue; an IDLE printer goes on (R122, R135). -/
def enqueue (e : QueueEntry) (s : State) : State :=
  wakePrinter { s with pen := { s.pen with queue := s.pen.queue ++ [e] } }

/-- An entry asked for outside sales; `bad` is the refusal of fields out of range (R142). -/
def printOutside (e : QueueEntry) (bad : Option Reason) (s : State) : State × Reply :=
  if !s.slotsEmpty then refuse .state s
  else
    match bad with
    | some r => refuse r s
    | none => if queueCapacity ≤ s.pen.queue.length then refuse .busy s else okay [] (enqueue e s)

/-- PRINT_TEXT (R142). -/
def execPrintText (tag : Byte) (text : List Byte) (double cut : Bool) (s : State) : Host.Outcome State Fault Refusal :=
  request (.printText tag text double cut) tag
    (printOutside (printLine .text none none text double cut) (if 32 < text.length then some .length else none)) s

/-- PRINT_FEED (R142). -/
def execPrintFeed (tag : Byte) (rows : Nat) (s : State) : Host.Outcome State Fault Refusal :=
  request (.printFeed tag rows) tag
    (printOutside (.feed rows) (if rows < 1 ∨ 255 < rows then some .range else none)) s

/-- PRINT_CUT (R142). -/
def execPrintCut (tag : Byte) (s : State) : Host.Outcome State Fault Refusal :=
  request (.printCut tag) tag (printOutside .cut none) s

/-! ## PRINT_READ (R143) -/

/-- The head entry (R143). -/
def QueueEntry.fields : QueueEntry → List Field
  | .line l =>
    [.enum 0, .enum l.source.code] ++ optFields l.saleTag (fun t => [.int 2 t]) ++ optFields l.line (fun n => [.int 1 n]) ++
    [.int 1 l.rowsDone, .flag l.double, .flag l.cutAfter]
  | .feed rows => [.enum 1, .int 1 rows]
  | .cut => [.enum 2]

/-- PRINT_READ's response (R143): the halt marks are the flags of paper out and cover open; the sensors stand in the order
of R120, the home switch numbered HOME 0, AWAY 1 (log 17). -/
def printRead (s : State) : State × Reply :=
  okay (s.pen.state.fields ++ [.flag s.pen.paperMark, .flag s.pen.coverMark] ++
    [.flag s.pen.nearEnd, .flag s.pen.paperOut, .flag s.pen.coverOpen, .flag s.pen.headHot, .enum (!s.pen.home).toNat,
     .int 1 s.pen.queue.length, .int 1 (48 - s.pen.queue.length : Nat)] ++
    optFields s.pen.queue.head? QueueEntry.fields ++ [.int 1 s.pen.feed, .int 1 s.pen.sinceGlyph] ++
    optFields s.pen.owed (fun t => optFields t fun n => [.int 2 n]) ++ optFields s.pen.context.sale (fun t => [.int 2 t]) ++
    [.flag s.pen.context.header, .flag s.pen.context.tail, .int 2 s.tbs.font.generation,
     .int 2 s.tbs.headerTrailer.generation]) s

/-- PRINT_READ (R143). -/
def execPrintRead (tag : Byte) (s : State) : Host.Outcome State Fault Refusal := request (.printRead tag) tag printRead s

end Sys2Proof.Machine
end

