-- ==== Sys2Proof/Machine/PulseBudget.lean ====
section
/-! DEFINITION. The meanings of the pulse budget unit's commands (chapter 8). -/

namespace Sys2Proof.Machine

open Sys2Proof

/-- The oldest entry leaves the grant list 20 ms after its start, and PBU examines its requests (R146, R151). -/
def grantExpires (s : State) : State :=
  match s.pbu.grants with
  | [] => s
  | g :: gs =>
    let t := reach (g.start + 20000) s
    examine { t with pbu := { t.pbu with grants := gs } }

/-- GRANT_EXPIRY (R146). -/
def execGrantExpiry (s : State) : Host.Outcome State Fault Refusal := event grantExpires s

/-- A held pending write starts when the warning has cleared (R56). -/
def storeCleared (s : State) : State :=
  if s.sst.pendingTotals && s.sst.inFlight.isNone then startTotals s else s

/-- The debounced supply warning changes: SUPPLY is raised, and TLC, PEN and SST act (R148, R109, R138, R56); when it clears,
TLC places its request before PEN goes on (R150, log 25). -/
def warningChanges (on : Bool) (s : State) : State :=
  if s.pbu.warning = on then s
  else
    let t := raise (.supply on)
      { s with pins := { s.pins with supplyWarning := on }, pbu := { s.pbu with warning := on } }
    if on then printerWarned (holdImposed t) else storeCleared (printerCleared (holdLifted t))

/-- SUPPLY_WARNING_CHANGE (R148). -/
def execSupplyWarningChange (on : Bool) (s : State) : Host.Outcome State Fault Refusal := event (warningChanges on) s

/-- An entry of the grant list: kind, cost, microseconds since its start (R155). -/
def Grant.fields (clock : Nat) (g : Grant) : List Field :=
  [.enum g.kind.code, .int 1 g.cost, .int 4 (clock - g.start : Nat)]

/-- BUDGET_READ's response (R155); the supply warning is a flag (log 59), and the list has its count byte beside the number of
its entries (log 60). -/
def budgetRead (s : State) : State × Reply :=
  okay ([.int 1 (grantSum s.pbu.grants), .int 1 s.pbu.grants.length] ++ listFields s.pbu.grants (Grant.fields s.clock) ++
    optFields s.pbu.arbiter (fun a => optFields a.saleTag (fun t => [.int 2 t]) ++ optFields a.line (fun n => [.int 1 n])) ++
    optFields s.pbu.pulse (fun p => [.int 4 (msLeft p s.clock)]) ++ [.flag s.pbu.strobe] ++
    optFields s.pbu.solenoidReq (fun r => [.int 4 (msLeft r s.clock)]) ++
    optFields s.pbu.phaseReq (fun r => [.enum (!r.first).toNat, .int 1 r.cost, .int 4 (s.clock - r.since : Nat)]) ++
    [.flag s.pbu.warning]) s

/-- BUDGET_READ (R155). -/
def execBudgetRead (tag : Byte) (s : State) : Host.Outcome State Fault Refusal := request (.budgetRead tag) tag budgetRead s

end Sys2Proof.Machine
end

