-- ==== Sys2Proof/Machine/Sales.lean ====
section
/-! DEFINITION. The meanings of the sale's commands (chapter 4). -/

namespace Sys2Proof.Machine

open Sys2Proof

/-! ## Opening and item lines -/

/-- SALE_OPEN's effect (R66, R59). -/
def saleOpen (s : State) : State × Reply :=
  if s.lli.lane ≠ .ready then refuse .state s
  else if s.sru.openSlot.isSome then refuse .state s
  else if s.lli.params.closeBeforeSale ∧ s.tlc.state ≠ .closed then refuse .drawerOpen s
  else
    let t := setOpen (Sale.fresh s.sru.nextTag s.tbs.item.generation) s
    okay [.int 2 s.sru.nextTag] (composerAct { t with sru := t.sru.advanceTag })

/-- SALE_OPEN (R66). -/
def execSaleOpen (tag : Byte) (s : State) : Host.Outcome State Fault Refusal := request (.saleOpen tag) tag saleOpen s

/-- The ITEM line of a PLU and quantity, with its reason of referral (R68, R39). -/
def itemLine (item : Option ItemEntry) (plu quantity : Nat) : Line × Option ReferralReason :=
  match item with
  | none => ({ Line.plain .item .referred [] 0 with plu := some plu, quantity := some quantity }, some .missing)
  | some e =>
    if e.refer then
      ({ Line.plain .item .referred e.text 0 with
          plu := some plu, quantity := some quantity, unitPrice := some e.unitPrice, basis := some e.basis }, some .refer)
    else
      ({ Line.plain .item .posted e.text (e.unitPrice * quantity : Nat) with
          plu := some plu, quantity := some quantity, unitPrice := some e.unitPrice, basis := some e.basis }, none)

/-- The number and the state of a line made. -/
def lineFields (n : Nat) (st : LineState) : List Field := [.int 1 n, .enum st.code]

/-- ITEM_ADD's effect (R68, R39). -/
def itemAdd (plu quantity : Nat) (s : State) : State × Reply :=
  match s.openSale? with
  | none => refuse .state s
  | some o =>
    if !pluInRange plu || decide (quantity < 1) || decide (999 < quantity) then refuse .range s
    else if (s.tbs.findItem plu).any fun e => e.basis != .each then refuse .notEach s
    else if (s.tbs.findItem plu).any fun e => !e.refer && decide (maxLineAmount < e.unitPrice * quantity) then
      refuse .limit s
    else
      let l := itemLine (s.tbs.findItem plu) plu quantity
      if o.admits l.1 then okay (lineFields (o.lines.length + 1) l.1.state) (addLine o l.1 l.2 s)
      else refuse .limit s

/-- ITEM_ADD (R68). -/
def execItemAdd (tag : Byte) (plu quantity : Nat) (s : State) : Host.Outcome State Fault Refusal :=
  request (.itemAdd tag plu quantity) tag (itemAdd plu quantity) s

/-- An amount lies in the range of line amounts (00_scope.md, Amounts). -/
def lineAmountFits (a : Int) : Bool := decide (a.natAbs ≤ maxLineAmount)

/-- ITEM_TEXT's effect (R69); of the two refusals of one request, RANGE comes first (log 46). -/
def itemText (text : List Byte) (amount : Int) (s : State) : State × Reply :=
  match s.openSale? with
  | none => refuse .state s
  | some o =>
    if !lineAmountFits amount then refuse .range s
    else if 24 < text.length then refuse .length s
    else if o.admits (Line.plain .text .posted text amount) then
      okay [.int 1 (o.lines.length + 1 : Nat)] (addLine o (Line.plain .text .posted text amount) none s)
    else refuse .limit s

/-- ITEM_TEXT (R69). -/
def execItemText (tag : Byte) (text : List Byte) (amount : Int) (s : State) : Host.Outcome State Fault Refusal :=
  request (.itemText tag text amount) tag (itemText text amount) s

/-! ## Voids (R72) -/

/-- The sale in the open slot, when it is in OPEN or TENDERING. -/
def State.tenderSale? (s : State) : Option Sale :=
  match s.sru.openSlot with
  | some o => if o.state = .opened ∨ o.state = .tendering then some o else none
  | none => none

/-- The sale with a VOID line for a posted line, which becomes VOIDED and keeps its amount (R63, R72); the VOID line's text
is empty (log 45). -/
def Sale.voidPosted (o : Sale) (l : Line) : Sale :=
  (o.edit l.number fun l => { l with state := .voided }).append
    { Line.plain .void .posted [] (-l.amount) with voided := some l.number }

/-- The sale after the void of a CASH line: OPEN again when the tender is empty and there is no CARD line (R72). -/
def Sale.afterCashVoid (o : Sale) : Sale :=
  if o.tenderTotal = 0 ∧ !o.hasKind .card then { o with state := .opened } else o

/-- LINE_VOID on a line of the sale (R72). -/
def voidLine (o : Sale) (l : Line) (s : State) : State × Reply :=
  match l.state with
  | .voided => refuse .state s
  | .referred =>
    if l.kind.isItem then
      okay [.flag false] (composerAct (raiseReferral (o.voidReferred l.number) (setOpen (o.voidReferred l.number) s)))
    else refuse .state s
  | .posted =>
    if l.kind.isItem then
      if !o.hasRoom || !o.totalFits (-l.amount) then refuse .limit s
      else if o.state = .tendering ∧ o.balance - l.amount < 0 then refuse .limit s
      else okay [.flag true, .int 1 (o.lines.length + 1 : Nat)] (composerAct (setOpen (o.voidPosted l) s))
    else if l.kind = .cash then
      if !o.hasRoom then refuse .limit s
      else okay [.flag true, .int 1 (o.lines.length + 1 : Nat)]
        (composerAct (setOpen (o.voidPosted l).afterCashVoid s))
    else refuse .state s

/-- LINE_VOID's effect (R72). -/
def lineVoid (n : Nat) (s : State) : State × Reply :=
  match s.tenderSale? with
  | none => refuse .state s
  | some o =>
    match o.line? n with
    | none => refuse .range s
    | some l => voidLine o l s

/-- LINE_VOID (R72). -/
def execLineVoid (tag : Byte) (line : Nat) (s : State) : Host.Outcome State Fault Refusal :=
  request (.lineVoid tag line) tag (lineVoid line) s

/-! ## Referrals (R74, R75, R40) -/

/-- A sale's line that has an entry in the referral list. -/
def Sale.referred? (o : Sale) (n : Nat) : Option Line := if o.outstanding.contains n then o.line? n else none

/-- A referral leaves its list with the sale as it then is, and REFERRAL is raised (R73). -/
def endReferral (o : Sale) (s : State) : State := composerAct (raiseReferral o (setOpen o s))

/-- A referred line becomes POSTED at a price (R63, R74). -/
def Sale.postReferred (o : Sale) (n : Nat) (f : Line → Line) (amount : Int) : Sale :=
  (o.edit n fun l => { f l with state := .posted, amount := amount }).dropReferral n

/-- What an acceptance prices a line at, or its refusal (R40). -/
def answerPrice (l : Line) (p : ReferralPrice) : Except Reason (Int × (Line → Line)) :=
  match l.kind, p with
  | .weighed, .unitPrice u =>
    let b := l.basis.getD .perKg
    let a := price ((l.mass.map MassRecord.certified).getD 0) u b
    if 999999 < u then .error .limit
    else if maxLineAmount < a then .error .limit
    else .ok (a, fun l => { l with unitPrice := some u, basis := some b })
  | .weighed, .amount _ => .error .range
  | _, .unitPrice _ => .error .range
  | _, .amount a => if lineAmountFits a then .ok (a, id) else .error .limit

/-- REFERRAL_ANSWER with an acceptance (R74, R40). -/
def referralAccept (n : Nat) (p : ReferralPrice) (s : State) : State × Reply :=
  match s.tenderSale? with
  | none => refuse .state s
  | some o =>
    match o.referred? n with
    | none => refuse .tooLate s
    | some l =>
      match answerPrice l p with
      | .error r => refuse r s
      | .ok (a, f) =>
        if o.totalFits a then okay [] (endReferral (o.postReferred n f a) s) else refuse .limit s

/-- REFERRAL_ANSWER_ACCEPT (R74). -/
def execReferralAnswerAccept (tag : Byte) (line : Nat) (price : ReferralPrice) (s : State) :
    Host.Outcome State Fault Refusal :=
  request (.referralAnswerAccept tag line price) tag (referralAccept line price) s

/-- REFERRAL_ANSWER with a rejection (R74). -/
def referralReject (n : Nat) (s : State) : State × Reply :=
  match s.tenderSale? with
  | none => refuse .state s
  | some o =>
    match o.referred? n with
    | none => refuse .tooLate s
    | some _ => okay [] (endReferral (o.voidReferred n) s)

/-- REFERRAL_ANSWER_REJECT (R74). -/
def execReferralAnswerReject (tag : Byte) (line : Nat) (s : State) : Host.Outcome State Fault Refusal :=
  request (.referralAnswerReject tag line) tag (referralReject line) s

/-- A referral timer expires (R75). -/
def referralExpires (n : Nat) (s : State) : State :=
  match s.sru.openSlot with
  | none => s
  | some o =>
    match o.referrals.find? fun r => r.line == n with
    | none => s
    | some r => endReferral (o.voidReferred n) (reach r.due s)

/-- REFERRAL_TIMER_EXPIRY (R75). -/
def execReferralTimerExpiry (line : Nat) (s : State) : Host.Outcome State Fault Refusal := event (referralExpires line) s

/-! ## Tenders (R76 to R80) -/

/-- The sale has left OPEN, if it was in it: WCH and ACP hear (R67). -/
def reportLeft (o : Sale) (s : State) : State := if o.state = .opened then leftOpen s else s

/-- The checks that both tenders begin with (R76, R77). -/
def tenderRefusal (o : Sale) (amount : Nat) (s : State) : Option Reason :=
  if amount < 1 ∨ maxItemTotal < amount then some .range
  else if !o.referrals.isEmpty then some .state
  else if s.wch.capture.isSome then some .state
  else none

/-- The sale with its cash line (R76), whose text is empty (log 45). -/
def Sale.withCash (o : Sale) (amount : Nat) : Sale :=
  { o with state := .tendering }.append (Line.plain .cash .posted [] amount)

/-- A sale in TENDERING after a tender settles, or goes on (R76, R78). -/
def afterTender (o : Sale) (change : Int) (s : State) : State :=
  if o.balance ≤ 0 then settle { o with changeDue := change } s else composerAct (setOpen o s)

/-- TENDER_CASH's effect (R76). -/
def tenderCash (amount : Nat) (s : State) : State × Reply :=
  match s.tenderSale? with
  | none => refuse .state s
  | some o =>
    match tenderRefusal o amount s with
    | some r => refuse r s
    | none =>
      if !o.hasRoom then refuse .limit s
      else
        let t := o.withCash amount
        okay ([.int 1 t.lastNumber] ++
            (if t.balance ≤ 0 then [.enum SaleState.settled.code, .int 4 (-t.balance)]
             else [.enum SaleState.tendering.code, .int 4 t.balance]))
          (afterTender t (-t.balance) (reportLeft o (setOpen t s)))

/-- TENDER_CASH (R76). -/
def execTenderCash (tag : Byte) (amount : Nat) (s : State) : Host.Outcome State Fault Refusal :=
  request (.tenderCash tag amount) tag (tenderCash amount) s

/-- The HELD record that a card tender of a serial can bind (R77). -/
def CardSlot.tenderable (c : CardSlot) (serial : Nat) : Option CardRecord :=
  match c with
  | .held r _ => if r.serial = serial ∧ r.trackB.status = .ok ∧ r.account.isSome then some r else none
  | .empty => none
  | .bound _ => none

/-- TENDER_CARD's effect (R77, R101). -/
def tenderCard (amount serial : Nat) (s : State) : State × Reply :=
  match s.tenderSale? with
  | none => refuse .state s
  | some o =>
    match tenderRefusal o amount s with
    | some r => refuse r s
    | none =>
      match s.sdc.slot.tenderable serial with
      | none => refuse .noCard s
      | some r =>
        if o.balance < amount then refuse .limit s
        else if !o.hasRoom then refuse .limit s
        else
          let waiting := { o with
            state := .authWait
            cardTender := some ⟨amount, serial, s.clock + s.lli.params.authTimeout * 1000000⟩ }
          let t := setOpen waiting s
          accept (reportLeft o { t with
            sru := { t.sru with lateAnswer := false }
            sdc := { t.sdc with slot := .bound r } })

/-- TENDER_CARD (R77). -/
def execTenderCard (tag : Byte) (amount serial : Nat) (s : State) : Host.Outcome State Fault Refusal :=
  request (.tenderCard tag amount serial) tag (tenderCard amount serial) s

/-- The sale in AUTH_WAIT with its pending card tender. -/
def State.authSale? (s : State) : Option (Sale × CardTender) :=
  match s.sru.openSlot with
  | some o => if o.state = .authWait then o.cardTender.map fun c => (o, c) else none
  | none => none

/-- An answer with no card tender pending (R80). -/
def lateAnswer (s : State) : State × Reply := if s.sru.lateAnswer then refuse .tooLate s else refuse .state s

/-- The CARD line of an approved tender (R78, R104); its text is empty (log 45). -/
def cardLine (c : CardTender) (code : List Byte) (s : State) : Line :=
  { Line.plain .card .posted [] c.amount with
    card := some ⟨maskAccount s.lli.params.maskLeadDigits ((s.sdc.slot.record?.bind CardRecord.account).getD []), code,
      c.serial⟩ }

/-- The sale with its approved card line, in TENDERING (R78). -/
def Sale.approved (o : Sale) (l : Line) : Sale := { o with state := .tendering, cardTender := none }.append l

/-- CARD_APPROVE's effect (R78, R80). -/
def cardApprove (code : List Byte) (s : State) : State × Reply :=
  match s.authSale? with
  | none => lateAnswer s
  | some (o, c) =>
    if code.length < 1 ∨ 8 < code.length then refuse .range s
    else
      let t := o.approved (cardLine c code s)
      okay [.int 1 t.lastNumber,
          .enum (if t.balance ≤ 0 then SaleState.settled.code else SaleState.tendering.code)]
        (afterTender t 0 (clearCard (setOpen t s)))

/-- CARD_APPROVE (R78). -/
def execCardApprove (tag : Byte) (code : List Byte) (s : State) : Host.Outcome State Fault Refusal :=
  request (.cardApprove tag code) tag (cardApprove code) s

/-- CARD_DECLINE's effect (R79, R80). -/
def cardDecline (s : State) : State × Reply :=
  match s.authSale? with
  | none => lateAnswer s
  | some (o, _) => okay [] (declineCard o s)

/-- CARD_DECLINE (R79). -/
def execCardDecline (tag : Byte) (s : State) : Host.Outcome State Fault Refusal := request (.cardDecline tag) tag cardDecline s

/-- The late-answer marker is set (R80). -/
def markLate (s : State) : State := { s with sru := { s.sru with lateAnswer := true } }

/-- The authorization timer expires (R80). -/
def authExpires (s : State) : State :=
  match s.authSale? with
  | none => s
  | some (o, c) => markLate (raise (.auth true) (declineCard o (reach c.due s)))

/-- AUTHORIZATION_TIMEOUT (R80). -/
def execAuthorizationTimeout (s : State) : Host.Outcome State Fault Refusal := event authExpires s

/-! ## Suspension, resumption, abort (R81 to R83) -/

/-- The places of the suspended stack taken, counting a reservation (R81). -/
def Sru.stacked (u : Sru) : Nat := u.stack.length + (if u.reserved then 1 else 0)

/-- The open sale enters the closing slot as CLOSING/SUSPENDED (R60, R81). -/
def suspend (o : Sale) (s : State) : State :=
  let c := { o with state := .closing, closingKind := some .suspended }
  composerAct (raiseSale c (.live .closing) (swapSlotTables (leftOpen
    { s with sru := { s.sru with openSlot := none, closing := some c } })))

/-- SALE_SUSPEND's effect (R81). -/
def saleSuspend (s : State) : State × Reply :=
  match s.openSale? with
  | none => refuse .state s
  | some o =>
    if !o.referrals.isEmpty then refuse .state s
    else if o.hasKind .cash || o.hasKind .card then refuse .state s
    else if s.wch.capture.isSome then refuse .busy s
    else if s.sru.closing.isSome then refuse .busy s
    else if 3 ≤ s.sru.stacked then refuse .limit s
    else okay [] (suspend o s)

/-- SALE_SUSPEND (R81). -/
def execSaleSuspend (tag : Byte) (s : State) : Host.Outcome State Fault Refusal := request (.saleSuspend tag) tag saleSuspend s

/-- A suspended sale as it enters the open slot (R82). -/
def Sale.resume (o : Sale) (itemGen : Nat) : Sale := { o with state := .opened, resumed := true, itemGen := itemGen }

/-- SALE_RESUME's effect (R82). -/
def saleResume (s : State) : State × Reply :=
  match s.sru.openSlot, s.sru.stack with
  | none, o :: rest =>
    let r := o.resume s.tbs.item.generation
    okay [.int 2 o.tag] (composerAct (raiseSale r (.live .opened)
      { s with sru := { s.sru with openSlot := some r, stack := rest } }))
  | none, [] => refuse .state s
  | some _, _ => refuse .state s

/-- SALE_RESUME (R82). -/
def execSaleResume (tag : Byte) (s : State) : Host.Outcome State Fault Refusal := request (.saleResume tag) tag saleResume s

/-- A pending card tender ends by abort (R83, R80, R101). -/
def abortTender (o : Sale) (s : State) : State :=
  if o.cardTender.isSome then markLate (raise (.auth false) (clearCard s)) else s

/-- The sale ABORTED: no tender, every outstanding referral cancelled (R83). -/
def Sale.aborted (o : Sale) : Sale :=
  { o.outstanding.foldl Sale.voidReferred o with state := .aborted, cardTender := none, referrals := [] }

/-- The abort of a sale at its one event (R83). -/
def abort (o : Sale) (s : State) : State :=
  let a := o.aborted
  let t := abortTender o (setOpen a s)
  let u := if o.referrals.isEmpty then t else raiseReferral a t
  let v := if 0 < o.tenderTotal then issueAuth (.abortCash o.tag) u else u
  composerAct (enterClosing (raiseSale a (.live .aborted) (reportLeft o v)))

/-- SALE_ABORT's effect (R83). -/
def saleAbort (s : State) : State × Reply :=
  match s.sru.openSlot with
  | none => refuse .state s
  | some o =>
    if o.state ≠ .opened ∧ o.state ≠ .tendering ∧ o.state ≠ .authWait then refuse .state s
    else if o.hasKind .card then refuse .state s
    else okay [] (abort o s)

/-- SALE_ABORT (R83). -/
def execSaleAbort (tag : Byte) (s : State) : Host.Outcome State Fault Refusal := request (.saleAbort tag) tag saleAbort s

/-- NO_SALE's effect (R85, R108). -/
def noSale (s : State) : State × Reply :=
  if s.lli.lane ≠ .ready ∨ s.sru.openSlot.isSome then refuse .state s
  else okay [.enum s.tlc.issueOutcome.code] (issueAuth .noSale s)

/-- NO_SALE (R85). -/
def execNoSale (tag : Byte) (s : State) : Host.Outcome State Fault Refusal := request (.noSale tag) tag noSale s

/-! ## Reads (R86, R87) -/

/-- A sale's summary in SALE_READ (R86). -/
def Sale.summary (o : Sale) (clock : Nat) : List Field :=
  [.int 2 o.tag, .enum o.state.code, .flag o.resumed, .int 4 o.itemTotal, .int 4 o.tenderTotal, .int 4 o.balance,
   .int 4 o.changeDue, .int 1 o.lines.length, .int 1 o.nextToQueue, .int 2 o.itemGen, .flag o.incomplete] ++
  optFields o.saleNumber (fun n => [.int 4 n]) ++
  listFields o.referrals (fun r => [.int 1 r.line, .enum r.reason.code, .int 4 (msLeft clock r.due)]) ++
  optFields o.cardTender (fun c => [.int 4 c.amount, .int 2 c.serial, .int 4 (msLeft clock c.due)])

/-- The closing slot's sale in SALE_READ: the same summary with the closing kind (R86). -/
def Sale.closingSummary (o : Sale) (clock : Nat) : List Field :=
  o.summary clock ++ o.closingKind.toList.map fun k => .enum k.code

/-- SALE_READ's response (R86). -/
def saleRead (s : State) : State × Reply :=
  okay ([.int 2 s.sru.nextTag] ++ optFields s.sru.openSlot (fun o => o.summary s.clock) ++
    optFields s.sru.closing (fun o => o.closingSummary s.clock) ++ listFields s.sru.stack (fun o => [.int 2 o.tag]) ++
    [.flag s.sru.reserved, .flag s.sru.lateAnswer]) s

/-- SALE_READ (R86). -/
def execSaleRead (tag : Byte) (s : State) : Host.Outcome State Fault Refusal := request (.saleRead tag) tag saleRead s

/-- A mass record (R62, R43). -/
def MassRecord.fields (m : MassRecord) : List Field :=
  [.int 4 m.gross, .enum m.tare.code] ++ (if m.tare = .none then [.flag false] else [.flag true, .int 4 m.tare.value]) ++
  [.int 4 m.certified, .int 1 m.interval, .int 2 m.generation]

/-- Every field of a line, in the order of R62, and a REFERRED line's reason (R87); unit price and basis each with a presence
byte of its own (log 47). -/
def Line.fields (l : Line) (reason : Option ReferralReason) : List Field :=
  [.int 1 l.number, .enum l.kind.code, .enum l.state.code] ++ optFields l.plu (fun p => [.int 4 p]) ++ [.text l.text] ++
  optFields l.quantity (fun q => [.int 2 q]) ++ optFields l.mass MassRecord.fields ++
  optFields l.unitPrice (fun u => [.int 4 u]) ++ optFields l.basis (fun b => [.enum b.code]) ++ [.int 4 l.amount] ++
  optFields l.voided (fun n => [.int 1 n]) ++
  optFields l.card (fun c => [.text c.masked, .text c.approval, .int 2 c.serial]) ++ [.enum l.print.code] ++
  optFields reason (fun r => [.enum r.code])

/-- The sale of a place (R87); a byte that names no place has none, so LINE_READ of it is refused NOT_FOUND, the model's
choice (log 63). -/
def Sru.place (u : Sru) : SalePlace → Option Sale
  | .opened => u.openSlot
  | .closing => u.closing
  | .other _ => none

/-- The reason of a line's referral. -/
def Sale.reason? (o : Sale) (n : Nat) : Option ReferralReason :=
  (o.referrals.find? fun r => r.line == n).map Referral.reason

/-- LINE_READ's response (R87). -/
def lineRead (p : SalePlace) (n : Nat) (s : State) : State × Reply :=
  match s.sru.place p with
  | none => refuse .notFound s
  | some o =>
    match o.line? n with
    | none => refuse .notFound s
    | some l => okay (l.fields (o.reason? n)) s

/-- LINE_READ (R87). -/
def execLineRead (tag : Byte) (place : SalePlace) (line : Nat) (s : State) : Host.Outcome State Fault Refusal :=
  request (.lineRead tag place line) tag (lineRead place line) s

end Sys2Proof.Machine
end

