-- ==== Sys2Proof/Machine/TableLoad.lean ====
section
/-! DEFINITION. Loading tables (R174 to R181): the fields of an entry, its checks, and how a session ends. -/

namespace Sys2Proof.Machine

open Sys2Proof

/-! ## Names (R177) -/

/-- The table of a name (R177). -/
def tableNamed (t : List Byte) : Option TableName :=
  if t = ascii "ITEM" then some .item
  else if t = ascii "CODE" then some .code
  else if t = ascii "FONT" then some .font
  else if t = ascii "CARD_FORMAT" then some .cardFormat
  else if t = ascii "HEADER_TRAILER" then some .headerTrailer
  else none

/-! ## Entries as carried (log 27) -/

/-- Fields read to the last byte, or none for a wrong size (R193). -/
def readAll {α : Type} (p : Reader α) (bs : List Byte) : Option α :=
  match p bs with
  | some (a, []) => some a
  | _ => none

/-- An item record as carried (R174). -/
structure RawItem where
  plu   : Nat
  text  : List Byte
  basis : Nat
  price : Nat
  tare  : Option Nat
  refer : Bool

def readItem : Reader RawItem :=
  (readNat 4).andThen fun p => readText.andThen fun t => (readNat 1).andThen fun b => (readNat 4).andThen fun u =>
    (readOpt (readNat 2)).andThen fun w => readFlag.andThen fun r => .pure ⟨p, t, b, u, w, r⟩

/-- A field of a code record: start and length (R175). -/
def readSpan : Reader (Nat × Nat) := (readNat 1).andThen fun s => (readNat 1).andThen fun l => .pure (s, l)

/-- A code record as carried (R175). -/
structure RawCode where
  lead   : List Byte
  total  : Nat
  check  : Bool
  action : Nat
  plu    : Option (Nat × Nat)
  price  : Option (Nat × Nat)

def readCode : Reader RawCode :=
  readText.andThen fun p => (readNat 1).andThen fun t => readFlag.andThen fun c => (readNat 1).andThen fun a =>
    (readOpt readSpan).andThen fun u => (readOpt readSpan).andThen fun v => .pure ⟨p, t, c, a, u, v⟩

/-- A font record (R176); bits 12 to 15 of a row are ignored. -/
def readGlyph : Reader GlyphEntry :=
  (readNat 1).andThen fun c => (readRows 24).andThen fun rs => .pure ⟨c, rs.map (BitVec.ofNat 12)⟩

/-- A card format record as carried (R176). -/
structure RawFormat where
  track     : Nat
  width     : Nat
  start     : Nat
  stop      : Nat
  separator : Nat
  maxChars  : Nat

def readFormat : Reader RawFormat :=
  (readNat 1).andThen fun k => (readNat 1).andThen fun w => (readNat 1).andThen fun a => (readNat 1).andThen fun b =>
    (readNat 1).andThen fun c => (readNat 1).andThen fun m => .pure ⟨k, w, a, b, c, m⟩

/-- A header/trailer record as carried (R176). -/
structure RawHeader where
  kind     : Nat
  position : Nat
  text     : List Byte
  double   : Bool

def readHeader : Reader RawHeader :=
  (readNat 1).andThen fun k => (readNat 1).andThen fun p => readText.andThen fun t => readFlag.andThen fun d =>
    .pure ⟨k, p, t, d⟩

/-! ## Checks -/

/-- The basis of its byte (R174, R190). -/
def basisOf : Nat → Option Basis
  | 0 => some .perKg
  | 1 => some .per100g
  | 2 => some .each
  | _ => none

/-- A preset tare lies in its range (check 4 of R174). -/
def presetFits (s : State) (p : Nat) : Bool :=
  if s.sst.state = .intact ∧ s.sst.image.record.valid = true then
    decide (1 ≤ p) && decide (p ≤ s.sst.image.record.max1) && p % s.sst.image.record.e1 == 0
  else decide (1 ≤ p) && decide (p ≤ 30000)

/-- The checks of an item entry (R174). -/
def checkItem (s : State) (load : List ItemEntry) (r : RawItem) : Except Reason ItemEntry :=
  match basisOf r.basis with
  | none => .error .range
  | some b =>
    if !pluInRange r.plu || decide (999999 < r.price) then .error .range
    else if 24 < r.text.length then .error .length
    else if b = .each ∧ r.tare.isSome then .error .range
    else if !r.tare.all (presetFits s) then .error .range
    else if load.any fun e => e.plu == r.plu then .error .duplicate
    else if 1024 ≤ load.length then .error .limit
    else .ok ⟨r.plu, r.text, b, r.price, r.tare, r.refer⟩

/-- The action of its byte (R175, R190). -/
def actionOf : Nat → Option CodeAction
  | 0 => some .forward
  | 1 => some .weigh
  | 2 => some .embedded
  | 3 => some .block
  | _ => none

/-- The fields that an action uses are present, and no others (check 2 of R175). -/
def fieldsUsed (a : CodeAction) (plu price : Option (Nat × Nat)) : Bool :=
  match a with
  | .forward => plu.isNone && price.isNone
  | .weigh => plu.isSome && price.isNone
  | .embedded => plu.isSome && price.isSome
  | .block => plu.isNone && price.isNone

/-- A field with start 1 to 20 and length 1 to `most` (check 3 of R175). -/
def spanFits (most : Nat) (f : Nat × Nat) : Bool :=
  decide (1 ≤ f.1) && decide (f.1 ≤ 20) && decide (1 ≤ f.2) && decide (f.2 ≤ most)

/-- A field ends at or before digit `last` (check 4 of R175). -/
def spanEnds (last : Nat) (f : Nat × Nat) : Bool := decide (f.1 + f.2 ≤ last + 1)

/-- Check 4 of R175. -/
def totalFitsFields (r : RawCode) : Bool :=
  r.total == 0 ||
  (decide (r.lead.length ≤ r.total) && r.plu.all (spanEnds (if r.check then r.total - 1 else r.total)) &&
    r.price.all (spanEnds (if r.check then r.total - 1 else r.total)))

/-- The prefix and the total length (check 1 of R175). -/
def leadFits (r : RawCode) : Bool :=
  decide (1 ≤ r.lead.length) && decide (r.lead.length ≤ 6) && r.lead.all isDigit &&
  (r.total == 0 || (decide (8 ≤ r.total) && decide (r.total ≤ 20)))

/-- The checks of a code entry (R175). -/
def checkCode (load : List CodeEntry) (r : RawCode) : Except Reason CodeEntry :=
  match actionOf r.action with
  | none => .error .range
  | some a =>
    if !leadFits r then .error .range
    else if !fieldsUsed a r.plu r.price then .error .range
    else if !(r.plu.all (spanFits 6) && r.price.all (spanFits 9)) then .error .range
    else if !totalFitsFields r then .error .range
    else if load.any fun e => e.lead == r.lead && e.total == r.total then .error .duplicate
    else if 64 ≤ load.length then .error .limit
    else .ok ⟨r.lead, r.total, r.check, a, r.plu, r.price⟩

/-- The checks of a font entry (R176). -/
def checkGlyph (load : List GlyphEntry) (g : GlyphEntry) : Except Reason GlyphEntry :=
  if g.code < 32 ∨ 127 < g.code then .error .range
  else if load.any fun e => e.code == g.code then .error .duplicate
  else .ok g

/-- The track of its byte (R176, R190). -/
def trackOf : Nat → Option Track
  | 0 => some .a
  | 1 => some .b
  | _ => none

/-- The greatest maximum characters of a track (section 5.2). -/
def mostChars : Track → Nat
  | .a => 79
  | .b => 40

/-- The checks of a card format entry (R176). -/
def checkFormat (load : List FormatEntry) (r : RawFormat) : Except Reason FormatEntry :=
  match trackOf r.track with
  | none => .error .range
  | some k =>
    if r.width < 4 ∨ 6 < r.width ∨ 2 ^ r.width ≤ r.start ∨ 2 ^ r.width ≤ r.stop ∨ 2 ^ r.width ≤ r.separator ∨
        r.maxChars < 2 ∨ mostChars k < r.maxChars then .error .range
    else if r.start = r.stop ∨ r.start = r.separator ∨ r.stop = r.separator then .error .range
    else if load.any fun e => e.track == k then .error .duplicate
    else .ok ⟨k, r.width, r.start, r.stop, r.separator, r.maxChars⟩

/-- The checks of a header/trailer entry (R176). -/
def checkHeader (load : List HeaderEntry) (r : RawHeader) : Except Reason HeaderEntry :=
  if 1 < r.kind ∨ r.position < 1 ∨ 4 < r.position then .error .range
  else if 32 < r.text.length then .error .length
  else if load.any fun e => e.trailer == (r.kind == 1) && e.position == r.position then .error .duplicate
  else .ok ⟨r.kind == 1, r.position, r.text, r.double⟩

/-! ## A record of a session (R178) -/

/-- What becomes of a record: its size is wrong (R193), it fails a check, or it enters the load bank. -/
inductive RecordResult where
  | badSize
  | failed (r : Reason)
  | entered (t : Tbs)

/-- An entry read and checked, and put last in its load bank. -/
def enterRecord {ρ α : Type} (read : Reader ρ) (check : List α → ρ → Except Reason α) (bank : TableBank α)
    (set : TableBank α → Tbs) (entry : List Byte) : RecordResult :=
  match readAll read entry with
  | none => .badSize
  | some r =>
    match check bank.load r with
    | .error e => .failed e
    | .ok a => .entered (set { bank with load := bank.load ++ [a] })

/-- A record taken as an entry of a table (R174, R175, R176). -/
def takeRecord (n : TableName) (entry : List Byte) (s : State) : RecordResult :=
  match n with
  | .item => enterRecord readItem (checkItem s) s.tbs.item (fun b => { s.tbs with item := b }) entry
  | .code => enterRecord readCode checkCode s.tbs.code (fun b => { s.tbs with code := b }) entry
  | .font => enterRecord readGlyph checkGlyph s.tbs.font (fun b => { s.tbs with font := b }) entry
  | .cardFormat => enterRecord readFormat checkFormat s.tbs.cardFormat (fun b => { s.tbs with cardFormat := b }) entry
  | .headerTrailer =>
    enterRecord readHeader checkHeader s.tbs.headerTrailer (fun b => { s.tbs with headerTrailer := b }) entry

/-! ## Load banks -/

/-- A load bank emptied, in a state, with the table's last result. -/
def TableBank.clearLoad {α : Type} (st : LoadState) (r : Option TableResult) (b : TableBank α) : TableBank α :=
  { b with load := [], loadState := st, last := r }

/-- A load bank becomes PENDING (R179); the last result, for which R185 names none here, stands (log 64). -/
def TableBank.pend {α : Type} (b : TableBank α) : TableBank α := { b with loadState := .pending }

/-- A session opens: the bank is LOADING and empty (R177); the last result stands (log 64). -/
def TableBank.opening {α : Type} (b : TableBank α) : TableBank α := { b with load := [], loadState := .loading }

/-- A load is given up with a result, and TABLE is raised with the unchanged generation (R177 to R181). -/
def giveUpLoad (n : TableName) (r : TableResult) (s : State) : State :=
  raise (.table n (s.tbs.generation n) r)
    { s with tbs := s.tbs.edit n fun _ b => b.clearLoad .empty (some r) }

/-- The session closes. -/
def closeSession (s : State) : State := { s with tbs := { s.tbs with session := none } }

/-- A session is aborted with a result (R177, R178, R179). -/
def abortSession (x : Session) (r : TableResult) (s : State) : State := closeSession (giveUpLoad x.table r s)

/-- The idle timer's length (R177). -/
def idleTime : Nat := 2000000

end Sys2Proof.Machine
end

