-- ==== Sys2Proof/Machine/Tables.lean ====
section
/-! DEFINITION. The meanings of the table store's commands (chapter 10). -/

namespace Sys2Proof.Machine

open Sys2Proof

/-- TABLE_BEGIN's effect (R177). -/
def tableBegin (name : List Byte) (s : State) : State × Reply :=
  match tableNamed name with
  | none => refuse .range s
  | some n =>
    if s.tbs.session.isSome then refuse .busy s
    else if s.tbs.loadState n = .pending then refuse .busy s
    else okay [] { s with tbs :=
      { s.tbs.edit n (fun _ b => b.opening) with session := some ⟨n, 0, s.clock + idleTime⟩ } }

/-- TABLE_BEGIN (R177). -/
def execTableBegin (tag : Byte) (name : List Byte) (s : State) : Host.Outcome State Fault Refusal :=
  request (.tableBegin tag name) tag (tableBegin name) s

/-- TABLE_RECORD's effect (R178, R177). -/
def tableRecord (entry : List Byte) (s : State) : State × Reply :=
  match s.tbs.session with
  | none => refuse .state s
  | some x =>
    match takeRecord x.table entry s with
    | .badSize => refuse .length s
    | .failed r => (abortSession x (.invalid r (x.count + 1)) s, ⟨.refused r, []⟩)
    | .entered t =>
      okay [.int 2 (x.count + 1 : Nat)]
        { s with tbs := { t with session := some ⟨x.table, x.count + 1, s.clock + idleTime⟩ } }

/-- TABLE_RECORD (R178). -/
def execTableRecord (tag : Byte) (entry : List Byte) (s : State) : Host.Outcome State Fault Refusal :=
  request (.tableRecord tag entry) tag (tableRecord entry) s

/-- The session's bank becomes PENDING, and swaps when it can (R179, R182). -/
def pendTable (n : TableName) (s : State) : State :=
  trySwap n (closeSession { s with tbs := s.tbs.edit n fun _ b => b.pend })

/-- TABLE_END's effect (R179). -/
def tableEnd (count : Nat) (s : State) : State × Reply :=
  match s.tbs.session with
  | none => refuse .state s
  | some x =>
    if 1024 < count then refuse .range s
    else if count ≠ x.count then (abortSession x .count s, ⟨.refused .count, []⟩)
    else okay [.flag (s.swapReady x.table), .int 2 ((pendTable x.table s).tbs.generation x.table)] (pendTable x.table s)

/-- TABLE_END (R179). -/
def execTableEnd (tag : Byte) (count : Nat) (s : State) : Host.Outcome State Fault Refusal :=
  request (.tableEnd tag count) tag (tableEnd count) s

/-- The idle timer expires (R177). -/
def sessionIdle (s : State) : State :=
  match s.tbs.session with
  | none => s
  | some x => abortSession x .idle (reach x.due s)

/-- TABLE_IDLE_TIMEOUT (R177). -/
def execTableIdleTimeout (s : State) : Host.Outcome State Fault Refusal := event sessionIdle s

/-- The session closes when it serves the table. -/
def closeSessionOf (n : TableName) (s : State) : State :=
  if s.tbs.session.any fun x => x.table == n then closeSession s else s

/-- TABLE_CANCEL's effect (R181). -/
def tableCancel (name : List Byte) (s : State) : State × Reply :=
  match tableNamed name with
  | none => refuse .range s
  | some n =>
    match s.tbs.loadState n with
    | .loading => okay [] (closeSessionOf n (giveUpLoad n .cancelled s))
    | .pending => okay [] (giveUpLoad n .cancelled s)
    | .empty => refuse .state s

/-- TABLE_CANCEL (R181). -/
def execTableCancel (tag : Byte) (name : List Byte) (s : State) : Host.Outcome State Fault Refusal :=
  request (.tableCancel tag name) tag (tableCancel name) s

/-! ## Reads (R184, R185) -/

/-- An item entry's fields (R174). -/
def ItemEntry.fields (e : ItemEntry) : List Field :=
  [.int 4 e.plu, .text e.text, .enum e.basis.code, .int 4 e.unitPrice] ++ optFields e.presetTare (fun p => [.int 2 p]) ++
  [.flag e.refer]

/-- A field of a code entry (R175). -/
def spanFields (f : Nat × Nat) : List Field := [.int 1 f.1, .int 1 f.2]

/-- A code entry's fields (R175). -/
def CodeEntry.fields (e : CodeEntry) : List Field :=
  [.text e.lead, .int 1 e.total, .flag e.check, .enum e.action.code] ++ optFields e.plu spanFields ++
  optFields e.price spanFields

/-- A font entry's fields (R176). -/
def GlyphEntry.fields (g : GlyphEntry) : List Field := .int 1 g.code :: g.rows.map fun r => .int 2 r.toNat

/-- A card format entry's fields (R176). -/
def FormatEntry.fields (e : FormatEntry) : List Field :=
  [.enum (trackCode e.track), .int 1 e.width, .int 1 e.start, .int 1 e.stop, .int 1 e.separator, .int 1 e.maxChars]

/-- A header/trailer entry's fields (R176). -/
def HeaderEntry.fields (h : HeaderEntry) : List Field :=
  [.enum h.trailer.toNat, .int 1 h.position, .text h.text, .flag h.double]

/-- The fields of the entry at an index from 1 upward (R184). -/
def entryAt {α : Type} (l : List α) (f : α → List Field) (index : Nat) : Option (List Field) :=
  if index = 0 then none else (l[index - 1]?).map f

/-- The entry of an active bank at an index (R184). -/
def Tbs.entryFields (t : Tbs) (n : TableName) (index : Nat) : Option (List Field) :=
  match n with
  | .item => entryAt t.item.active ItemEntry.fields index
  | .code => entryAt t.code.active CodeEntry.fields index
  | .font => entryAt t.font.active GlyphEntry.fields index
  | .cardFormat => entryAt t.cardFormat.active FormatEntry.fields index
  | .headerTrailer => entryAt t.headerTrailer.active HeaderEntry.fields index

/-- TABLE_READ's response (R184); an unknown name is refused before an index of 0 (log 56). -/
def tableRead (name : List Byte) (index : Nat) (s : State) : State × Reply :=
  match tableNamed name with
  | none => refuse .range s
  | some n =>
    match s.tbs.entryFields n index with
    | none => refuse .notFound s
    | some fs => okay (fs ++ [.int 2 (s.tbs.generation n)]) s

/-- TABLE_READ (R184). -/
def execTableRead (tag : Byte) (name : List Byte) (index : Nat) (s : State) : Host.Outcome State Fault Refusal :=
  request (.tableRead tag name index) tag (tableRead name index) s

/-- A table in TABLE_STATUS (R185); the numbers of entries and the record count take 2 bytes for every table (log 65). -/
def State.tableFields (s : State) (n : TableName) : List Field :=
  [.int 2 (s.tbs.generation n), .int 2 (s.tbs.look n fun _ b => b.active.length), .enum (s.tbs.loadState n).code,
   .int 2 (s.tbs.look n fun _ b => b.load.length)] ++
  (if s.tbs.loadState n = .pending then [.flag true, .flag (s.swapReady n)] else [.flag false]) ++
  optFields (s.tbs.session.filter fun x => x.table == n) (fun x => [.int 2 x.count, .int 4 (msLeft s.clock x.due)]) ++
  optFields (s.tbs.look n fun _ b => b.last) TableResult.fields

/-- TABLE_STATUS's response (R185); the five tables have no count byte (log 60). -/
def tableStatus (s : State) : State × Reply :=
  okay ([TableName.item, .code, .font, .cardFormat, .headerTrailer].flatMap s.tableFields) s

/-- TABLE_STATUS (R185). -/
def execTableStatus (tag : Byte) (s : State) : Host.Outcome State Fault Refusal := request (.tableStatus tag) tag tableStatus s

end Sys2Proof.Machine
end

