-- ==== Sys2Proof/Machine/Till.lean ====
section
/-! DEFINITION. The meanings of the till's commands (chapter 6). -/

namespace Sys2Proof.Machine

open Sys2Proof

/-- The debounced drawer switch, with the level that a reset would read. -/
def setSwitch (isOpen : Bool) (s : State) : State :=
  { s with pins := { s.pins with drawerOpen := isOpen }, tlc := { s.tlc with switchOpen := isOpen } }

/-- The drawer comes out (R110 to R115). -/
def drawerOut (s : State) : State :=
  match s.tlc.state with
  | .closed => enterOpened s.tlc.auth.isNone s
  | .waitGrant => enterOpened false (withdrawSolenoid s)
  | .pulsing _ => enterOpened false (reportPulseEnd s)
  | .confirming _ => enterOpened false s
  | .jammed => enterOpened false s
  | .opened _ _ => s
  | .overdue _ => s

/-- DRAWER_SWITCH_OPENS (R115, R110 to R113). -/
def execDrawerSwitchOpens (s : State) : Host.Outcome State Fault Refusal :=
  event (fun s => if s.tlc.switchOpen then s else drawerOut (setSwitch true s)) s

/-- The drawer is in again (R114). -/
def drawerIn (s : State) : State :=
  match s.tlc.state with
  | .opened _ _ => raiseDrawer none { s with tlc := { s.tlc with state := .closed } }
  | .overdue _ => raiseDrawer none { s with tlc := { s.tlc with state := .closed } }
  | .closed => s
  | .waitGrant => s
  | .pulsing _ => s
  | .confirming _ => s
  | .jammed => s

/-- DRAWER_SWITCH_CLOSES (R114). -/
def execDrawerSwitchCloses (s : State) : Host.Outcome State Fault Refusal :=
  event (fun s => if s.tlc.switchOpen then drawerIn (setSwitch false s) else s) s

/-- The pulse timer expires: the pulse's end is reported, and the confirm timer starts (R111). -/
def pulseExpires (s : State) : State :=
  match s.tlc.state with
  | .pulsing due =>
    let t := reach due s
    reportPulseEnd { t with tlc := { t.tlc with state := .confirming (t.clock + t.lli.params.drawerConfirm * 1000) } }
  | .closed => s
  | .waitGrant => s
  | .confirming _ => s
  | .opened _ _ => s
  | .overdue _ => s
  | .jammed => s

/-- PULSE_TIMER_EXPIRY (R111). -/
def execPulseTimerExpiry (s : State) : Host.Outcome State Fault Refusal := event pulseExpires s

/-- The drawer has not come out after its third pulse, or another attempt is made (R112). -/
def confirmFailed (s : State) : State :=
  if 3 ≤ s.tlc.retries then raiseDrawer s.tlc.auth { s with tlc := { s.tlc with state := .jammed } } else towardGrant s

/-- The confirm timer expires (R112). -/
def confirmExpires (s : State) : State :=
  match s.tlc.state with
  | .confirming due => confirmFailed (reach due s)
  | .closed => s
  | .waitGrant => s
  | .pulsing _ => s
  | .opened _ _ => s
  | .overdue _ => s
  | .jammed => s

/-- CONFIRM_TIMER_EXPIRY (R112). -/
def execConfirmTimerExpiry (s : State) : Host.Outcome State Fault Refusal := event confirmExpires s

/-- The overdue timer expires (R114). -/
def overdueExpires (s : State) : State :=
  match s.tlc.state with
  | .opened u due =>
    let t := reach due s
    raiseDrawer none { t with tlc := { t.tlc with state := .overdue u } }
  | .closed => s
  | .waitGrant => s
  | .pulsing _ => s
  | .confirming _ => s
  | .overdue _ => s
  | .jammed => s

/-- OVERDUE_TIMER_EXPIRY (R114). -/
def execOverdueTimerExpiry (s : State) : Host.Outcome State Fault Refusal := event overdueExpires s

/-- The authorization is dropped unserved, and the drawer is CLOSED (R117). -/
def dropAuth (s : State) : State := { s with tlc := { s.tlc with auth := none, retries := 0, state := .closed } }

/-- TILL_CLEAR's effect (R117). -/
def tillClear (s : State) : State × Reply :=
  match s.tlc.state with
  | .jammed => okay [] (raiseDrawer none (dropAuth s))
  | .closed => if s.tlc.auth.isSome then okay [] (dropAuth s) else refuse .state s
  | .waitGrant => refuse .state s
  | .pulsing _ => refuse .state s
  | .confirming _ => refuse .state s
  | .opened _ _ => refuse .state s
  | .overdue _ => refuse .state s

/-- TILL_CLEAR (R117). -/
def execTillClear (tag : Byte) (s : State) : Host.Outcome State Fault Refusal := request (.tillClear tag) tag tillClear s

/-- The unauthorized flag (R115). -/
def DrawerState.flagged : DrawerState → Bool
  | .opened u _ => u
  | .overdue u => u
  | .closed => false
  | .waitGrant => false
  | .pulsing _ => false
  | .confirming _ => false
  | .jammed => false

/-- The due time of the timer that runs (R118). -/
def DrawerState.due? : DrawerState → Option Nat
  | .pulsing due => some due
  | .confirming due => some due
  | .opened _ due => some due
  | .overdue _ => none
  | .closed => none
  | .waitGrant => none
  | .jammed => none

/-- TILL_READ's response (R118): the debounced switch is numbered OPEN 0, CLOSED 1 (log 17); the holds in force are two
flags, the supply warning's and CAL's (log 47). -/
def tillRead (s : State) : State × Reply :=
  okay ([.enum s.tlc.state.code, .enum (!s.tlc.switchOpen).toNat, .flag s.tlc.state.flagged] ++
    optFields s.tlc.auth (fun a => .enum a.code :: optFields a.tag fun t => [.int 2 t]) ++
    [.int 1 s.tlc.retries, .flag s.pbu.warning, .flag (s.wch.state == .cal)] ++
    optFields s.tlc.state.due? (fun d => [.int 4 (msLeft s.clock d)])) s

/-- TILL_READ (R118). -/
def execTillRead (tag : Byte) (s : State) : Host.Outcome State Fault Refusal := request (.tillRead tag) tag tillRead s

end Sys2Proof.Machine
end

