-- ==== Sys2Proof/Machine/Dispatch.lean ====
section
/-! DEFINITION. The meaning of every command: one arm for each row of spec/opcode_table.json. -/

namespace Sys2Proof.Machine

open Sys2Proof

def exec (i : Instr) (s : State) : Host.Outcome State Fault Refusal :=
  match i with
  | .powerReset pins => Sys2Proof.Machine.execPowerReset pins s
  | .pinReset pins => Sys2Proof.Machine.execPinReset pins s
  | .resetAfterWrite how pins => Sys2Proof.Machine.execResetAfterWrite how pins s
  | .linkReset pins => Sys2Proof.Machine.execLinkReset pins s
  | .startupTimer => Sys2Proof.Machine.execStartupTimer s
  | .laneFrameReceived bytes => Sys2Proof.Machine.execLaneFrameReceived bytes s
  | .receiveGapTimeout => Sys2Proof.Machine.execReceiveGapTimeout s
  | .unknownRequest tag payload => Sys2Proof.Machine.execUnknownRequest tag payload s
  | .transmitEnd => Sys2Proof.Machine.execTransmitEnd s
  | .controllerReset tag => Sys2Proof.Machine.execControllerReset tag s
  | .laneStart tag => Sys2Proof.Machine.execLaneStart tag s
  | .setNoticeMask tag flags => Sys2Proof.Machine.execSetNoticeMask tag flags s
  | .readEvents tag => Sys2Proof.Machine.execReadEvents tag s
  | .setParam tag name value => Sys2Proof.Machine.execSetParam tag name value s
  | .getParam tag name => Sys2Proof.Machine.execGetParam tag name s
  | .laneStatus tag => Sys2Proof.Machine.execLaneStatus tag s
  | .sample value => Sys2Proof.Machine.execSample value s
  | .converterWatch => Sys2Proof.Machine.execConverterWatch s
  | .zeroTrackingExpiry => Sys2Proof.Machine.execZeroTrackingExpiry s
  | .captureTimerExpiry => Sys2Proof.Machine.execCaptureTimerExpiry s
  | .disturbanceWindowClose => Sys2Proof.Machine.execDisturbanceWindowClose s
  | .weighRestart tag => Sys2Proof.Machine.execWeighRestart tag s
  | .weighZero tag => Sys2Proof.Machine.execWeighZero tag s
  | .weighTare tag => Sys2Proof.Machine.execWeighTare tag s
  | .weighPresetTare tag grams => Sys2Proof.Machine.execWeighPresetTare tag grams s
  | .weighClearTare tag => Sys2Proof.Machine.execWeighClearTare tag s
  | .weighCapture tag plu => Sys2Proof.Machine.execWeighCapture tag plu s
  | .weighCancel tag => Sys2Proof.Machine.execWeighCancel tag s
  | .weighTestOn tag offset => Sys2Proof.Machine.execWeighTestOn tag offset s
  | .weighTestOff tag => Sys2Proof.Machine.execWeighTestOff tag s
  | .weighRead tag => Sys2Proof.Machine.execWeighRead tag s
  | .calibrationSwitchChange closed => Sys2Proof.Machine.execCalibrationSwitchChange closed s
  | .calEnter tag => Sys2Proof.Machine.execCalEnter tag s
  | .calLeave tag => Sys2Proof.Machine.execCalLeave tag s
  | .calZero tag => Sys2Proof.Machine.execCalZero tag s
  | .calSpan tag mcal => Sys2Proof.Machine.execCalSpan tag mcal s
  | .calRanges tag max1 e1 max e2 => Sys2Proof.Machine.execCalRanges tag max1 e1 max e2 s
  | .calStepTimeout => Sys2Proof.Machine.execCalStepTimeout s
  | .calCommit tag => Sys2Proof.Machine.execCalCommit tag s
  | .storeRead tag => Sys2Proof.Machine.execStoreRead tag s
  | .writeComplete => Sys2Proof.Machine.execWriteComplete s
  | .writeTimeout => Sys2Proof.Machine.execWriteTimeout s
  | .saleOpen tag => Sys2Proof.Machine.execSaleOpen tag s
  | .itemAdd tag plu quantity => Sys2Proof.Machine.execItemAdd tag plu quantity s
  | .itemText tag text amount => Sys2Proof.Machine.execItemText tag text amount s
  | .lineVoid tag line => Sys2Proof.Machine.execLineVoid tag line s
  | .referralAnswerAccept tag line price => Sys2Proof.Machine.execReferralAnswerAccept tag line price s
  | .referralAnswerReject tag line => Sys2Proof.Machine.execReferralAnswerReject tag line s
  | .referralTimerExpiry line => Sys2Proof.Machine.execReferralTimerExpiry line s
  | .tenderCash tag amount => Sys2Proof.Machine.execTenderCash tag amount s
  | .tenderCard tag amount serial => Sys2Proof.Machine.execTenderCard tag amount serial s
  | .cardApprove tag code => Sys2Proof.Machine.execCardApprove tag code s
  | .cardDecline tag => Sys2Proof.Machine.execCardDecline tag s
  | .authorizationTimeout => Sys2Proof.Machine.execAuthorizationTimeout s
  | .saleSuspend tag => Sys2Proof.Machine.execSaleSuspend tag s
  | .saleResume tag => Sys2Proof.Machine.execSaleResume tag s
  | .saleAbort tag => Sys2Proof.Machine.execSaleAbort tag s
  | .noSale tag => Sys2Proof.Machine.execNoSale tag s
  | .saleRead tag => Sys2Proof.Machine.execSaleRead tag s
  | .lineRead tag place line => Sys2Proof.Machine.execLineRead tag place line s
  | .swipeEnd => Sys2Proof.Machine.execSwipeEnd s
  | .cardRecordExpiry => Sys2Proof.Machine.execCardRecordExpiry s
  | .cardRead tag => Sys2Proof.Machine.execCardRead tag s
  | .cardRelease tag serial => Sys2Proof.Machine.execCardRelease tag serial s
  | .drawerSwitchOpens => Sys2Proof.Machine.execDrawerSwitchOpens s
  | .drawerSwitchCloses => Sys2Proof.Machine.execDrawerSwitchCloses s
  | .pulseTimerExpiry => Sys2Proof.Machine.execPulseTimerExpiry s
  | .confirmTimerExpiry => Sys2Proof.Machine.execConfirmTimerExpiry s
  | .overdueTimerExpiry => Sys2Proof.Machine.execOverdueTimerExpiry s
  | .tillClear tag => Sys2Proof.Machine.execTillClear tag s
  | .tillRead tag => Sys2Proof.Machine.execTillRead tag s
  | .phaseEnd => Sys2Proof.Machine.execPhaseEnd s
  | .rowEnd => Sys2Proof.Machine.execRowEnd s
  | .feedStepEnd => Sys2Proof.Machine.execFeedStepEnd s
  | .cutterCycleComplete => Sys2Proof.Machine.execCutterCycleComplete s
  | .cutterTimeout => Sys2Proof.Machine.execCutterTimeout s
  | .paperOutChange out => Sys2Proof.Machine.execPaperOutChange out s
  | .coverOpenChange opened => Sys2Proof.Machine.execCoverOpenChange opened s
  | .headHotChange hot => Sys2Proof.Machine.execHeadHotChange hot s
  | .paperNearEndChange nearEnd => Sys2Proof.Machine.execPaperNearEndChange nearEnd s
  | .printResume tag => Sys2Proof.Machine.execPrintResume tag s
  | .printDiscard tag => Sys2Proof.Machine.execPrintDiscard tag s
  | .printText tag text double cut => Sys2Proof.Machine.execPrintText tag text double cut s
  | .printFeed tag rows => Sys2Proof.Machine.execPrintFeed tag rows s
  | .printCut tag => Sys2Proof.Machine.execPrintCut tag s
  | .printRead tag => Sys2Proof.Machine.execPrintRead tag s
  | .grantExpiry => Sys2Proof.Machine.execGrantExpiry s
  | .supplyWarningChange on => Sys2Proof.Machine.execSupplyWarningChange on s
  | .budgetRead tag => Sys2Proof.Machine.execBudgetRead tag s
  | .roundStart => Sys2Proof.Machine.execRoundStart s
  | .accessoryAnswer bytes => Sys2Proof.Machine.execAccessoryAnswer bytes s
  | .answerTimeout => Sys2Proof.Machine.execAnswerTimeout s
  | .mirrorTimer => Sys2Proof.Machine.execMirrorTimer s
  | .accessoryRead tag => Sys2Proof.Machine.execAccessoryRead tag s
  | .tableBegin tag name => Sys2Proof.Machine.execTableBegin tag name s
  | .tableRecord tag entry => Sys2Proof.Machine.execTableRecord tag entry s
  | .tableEnd tag count => Sys2Proof.Machine.execTableEnd tag count s
  | .tableIdleTimeout => Sys2Proof.Machine.execTableIdleTimeout s
  | .tableCancel tag name => Sys2Proof.Machine.execTableCancel tag name s
  | .tableRead tag name index => Sys2Proof.Machine.execTableRead tag name index s
  | .tableStatus tag => Sys2Proof.Machine.execTableStatus tag s
  | .stripeFluxTransition track time => Sys2Proof.Machine.execStripeFluxTransition track time s
  | .impossibleFrameLength length => Sys2Proof.Machine.execImpossibleFrameLength length s
  | .cutterHomeSwitchChange home => Sys2Proof.Machine.execCutterHomeSwitchChange home s

end Sys2Proof.Machine
end

