-- ==== Sys2Proof/Machine/Step.lean ====
section
/-! DEFINITION. A step: the command at the front of the queue, or a microsecond (log 3). -/

namespace Sys2Proof.Machine

open Sys2Proof

/-- The block idles for one microsecond of the timebase of R89 (log 3). -/
def State.tick (s : State) : State := { s with clock := s.clock + 1 }

/-- The command at the front of the queue leaves it and takes effect; an empty queue lets a microsecond pass. -/
def step (s : State) : Host.Outcome State Fault Refusal :=
  match s.pending with
  | i :: rest => exec i { s with pending := rest }
  | [] => .next s.tick

/-- The command that a word spells, put at the front of the queue; `s` where the word spells none. -/
def State.withFetchWord (s : State) (nbits w : Nat) : State :=
  match Sys2Proof.decodeTableWord nbits w with
  | some i => { s with pending := i :: s.pending }
  | none => s

end Sys2Proof.Machine
end

