-- ==== Sys2Proof/Safety.lean ====
section
/-! DEFINITION. The terms of the statements: what a command that the router takes answers, which parts of the block a command
leaves alone, which notices it raises, and the invariants of the block. -/

namespace Sys2Proof

/-- The tag of a request, which its response echoes; an event has none (R190). -/
def Instr.tag? : Instr → Option Byte
  | .powerReset _ => none
  | .pinReset _ => none
  | .resetAfterWrite _ _ => none
  | .linkReset _ => none
  | .startupTimer => none
  | .laneFrameReceived _ => none
  | .receiveGapTimeout => none
  | .unknownRequest tag _ => some tag
  | .transmitEnd => none
  | .controllerReset tag => some tag
  | .laneStart tag => some tag
  | .setNoticeMask tag _ => some tag
  | .readEvents tag => some tag
  | .setParam tag _ _ => some tag
  | .getParam tag _ => some tag
  | .laneStatus tag => some tag
  | .sample _ => none
  | .converterWatch => none
  | .zeroTrackingExpiry => none
  | .captureTimerExpiry => none
  | .disturbanceWindowClose => none
  | .weighRestart tag => some tag
  | .weighZero tag => some tag
  | .weighTare tag => some tag
  | .weighPresetTare tag _ => some tag
  | .weighClearTare tag => some tag
  | .weighCapture tag _ => some tag
  | .weighCancel tag => some tag
  | .weighTestOn tag _ => some tag
  | .weighTestOff tag => some tag
  | .weighRead tag => some tag
  | .calibrationSwitchChange _ => none
  | .calEnter tag => some tag
  | .calLeave tag => some tag
  | .calZero tag => some tag
  | .calSpan tag _ => some tag
  | .calRanges tag _ _ _ _ => some tag
  | .calStepTimeout => none
  | .calCommit tag => some tag
  | .storeRead tag => some tag
  | .writeComplete => none
  | .writeTimeout => none
  | .saleOpen tag => some tag
  | .itemAdd tag _ _ => some tag
  | .itemText tag _ _ => some tag
  | .lineVoid tag _ => some tag
  | .referralAnswerAccept tag _ _ => some tag
  | .referralAnswerReject tag _ => some tag
  | .referralTimerExpiry _ => none
  | .tenderCash tag _ => some tag
  | .tenderCard tag _ _ => some tag
  | .cardApprove tag _ => some tag
  | .cardDecline tag => some tag
  | .authorizationTimeout => none
  | .saleSuspend tag => some tag
  | .saleResume tag => some tag
  | .saleAbort tag => some tag
  | .noSale tag => some tag
  | .saleRead tag => some tag
  | .lineRead tag _ _ => some tag
  | .swipeEnd => none
  | .cardRecordExpiry => none
  | .cardRead tag => some tag
  | .cardRelease tag _ => some tag
  | .drawerSwitchOpens => none
  | .drawerSwitchCloses => none
  | .pulseTimerExpiry => none
  | .confirmTimerExpiry => none
  | .overdueTimerExpiry => none
  | .tillClear tag => some tag
  | .tillRead tag => some tag
  | .phaseEnd => none
  | .rowEnd => none
  | .feedStepEnd => none
  | .cutterCycleComplete => none
  | .cutterTimeout => none
  | .paperOutChange _ => none
  | .coverOpenChange _ => none
  | .headHotChange _ => none
  | .paperNearEndChange _ => none
  | .printResume tag => some tag
  | .printDiscard tag => some tag
  | .printText tag _ _ _ => some tag
  | .printFeed tag _ => some tag
  | .printCut tag => some tag
  | .printRead tag => some tag
  | .grantExpiry => none
  | .supplyWarningChange _ => none
  | .budgetRead tag => some tag
  | .roundStart => none
  | .accessoryAnswer _ => none
  | .answerTimeout => none
  | .mirrorTimer => none
  | .accessoryRead tag => some tag
  | .tableBegin tag _ => some tag
  | .tableRecord tag _ => some tag
  | .tableEnd tag _ => some tag
  | .tableIdleTimeout => none
  | .tableCancel tag _ => some tag
  | .tableRead tag _ _ => some tag
  | .tableStatus tag => some tag
  | .stripeFluxTransition _ _ => none
  | .impossibleFrameLength _ => none
  | .cutterHomeSwitchChange _ => none

end Sys2Proof

namespace Sys2Proof.Machine

open Sys2Proof

/-! ## Requests -/

/-- A request that the router takes at this event (R193): the router is open, and the request finds the queue empty or
stands at its head; `u` is the state with the request taken from the queue. -/
def AtRouter (i : Instr) (s u : State) : Prop :=
  routerOpen s = true ∧
  ((s.lli.requests = [] ∧ u = s) ∨
   ∃ rest, s.lli.requests = i :: rest ∧ u = { s with lli := { s.lli with requests := rest } })

/-- The responses on their way up, in order: the one being sent, then those that wait (R194). -/
def Lli.upstream (l : Lli) : List Response :=
  (match l.sending with
   | some (.response r) => [r]
   | some (.notice _) => []
   | some (.accUp _) => []
   | none => []) ++ l.responses

/-- The accessory frames on their way up, in order: the one being sent, then those that wait (R194). -/
def Lli.upFrames (l : Lli) : List AccFrame :=
  (match l.sending with
   | some (.accUp f) => [f]
   | some (.response _) => []
   | some (.notice _) => []
   | none => []) ++ l.accUps

/-- One response has been added to those on their way up. -/
def Answered (r : Response) (u t : State) : Prop := t.lli.upstream = u.lli.upstream ++ [r]

/-! ## Notices -/

/-- A notice is pending, or is being sent (R195). -/
def Notified (t : State) (n : Notice) : Prop := n ∈ t.lli.notices ∨ t.lli.sending = some (.notice n)

/-- But for the kinds `ks`, no notice is raised, and none is lost but by being sent (R195). -/
def RaisesOnly (ks : List Nat) (s t : State) : Prop :=
  ∀ n : Notice, n.kind ∉ ks →
    (n ∈ t.lli.notices → n ∈ s.lli.notices) ∧
    (n ∈ s.lli.notices → n ∈ t.lli.notices ∨ ∃ m, m.kind = n.kind ∧ t.lli.sending = some (.notice m))

/-! ## Parts of the block -/

/-- The parts of which a frame says that they are left alone. -/
inductive Part where
  | clock | free | pins | link | requests | responses | accFrames | transmitter
  | weighing | store | sale | stripe | till | printer | budget | accessory | tables
  deriving DecidableEq, Repr

/-- The lane link without its queues, its transmitter and its pending notices. -/
def Lli.settings (l : Lli) : Lli :=
  { l with requests := [], responses := [], accUps := [], sending := none, notices := [] }

/-- An ACCESSORY notice is being sent (R165). -/
def Lli.sendsAccessory (l : Lli) : Prop := ∃ n, l.sending = some (.notice n) ∧ isAccessory n = true

/-- A part of the block is left alone. A free transmitter may begin to send a frame at the end of any event (R194), and the
blocked-scan count returns to 0 as the ACCESSORY notice goes out (R165). -/
def samePart (s t : State) : Part → Prop
  | .clock => t.clock = s.clock
  | .free => t.free = s.free
  | .pins => t.pins = s.pins
  | .link => t.lli.settings = s.lli.settings
  | .requests => t.lli.requests = s.lli.requests
  | .responses => t.lli.upstream = s.lli.upstream
  | .accFrames => t.lli.upFrames = s.lli.upFrames
  | .transmitter => s.lli.sending.isSome = true → t.lli.sending = s.lli.sending
  | .weighing => t.wch = s.wch
  | .store => t.sst = s.sst
  | .sale => t.sru = s.sru
  | .stripe => t.sdc = s.sdc
  | .till => t.tlc = s.tlc
  | .printer => t.pen = s.pen
  | .budget => t.pbu = s.pbu
  | .accessory => t.acp = s.acp ∨ (t.acp = { s.acp with blocked := 0 } ∧ t.lli.sendsAccessory)
  | .tables => t.tbs = s.tbs

/-- The frame of a command: every part but those of `ps` is left alone, only the notice kinds `ks` are raised, and the queue
of commands that wait is untouched. -/
def ChangesOnly (ps : List Part) (ks : List Nat) (s t : State) : Prop :=
  t.pending = s.pending ∧ (∀ p, p ∉ ps → samePart s t p) ∧ RaisesOnly ks s t

/-- The command completes with a next state of which `P` holds. -/
def Completes (i : Instr) (s : State) (P : State → Prop) : Prop := ∃ t, exec i s = .next t ∧ P t

/-- The command completes; `P` holds after it, and its frame is as given. -/
def Does (i : Instr) (s : State) (ps : List Part) (ks : List Nat) (P : State → Prop) : Prop :=
  Completes i s fun t => ChangesOnly ps ks s t ∧ P t

/-- A request that the router takes completes with one response of this verdict and these fields; `P` holds after it, and
the frame, counted from the state with the request taken from the queue, is as given. -/
def Serves (i : Instr) (tag : Byte) (s : State) (v : Verdict) (fs : State → List Field) (ps : List Part) (ks : List Nat)
    (P : State → State → Prop) : Prop :=
  ∀ u, AtRouter i s u →
    Completes i s fun t => Answered ⟨tag, v, fs u, false⟩ u t ∧ ChangesOnly (.responses :: ps) ks u t ∧ P u t

/-- A request that the router takes is refused with this reason, and nothing else changes. -/
def Refuses (i : Instr) (tag : Byte) (s : State) (r : Reason) : Prop :=
  Serves i tag s (.refused r) (fun _ => []) [] [] fun _ _ => True

/-! ## What the composer and the printer may do besides -/

/-- A line without its print state. -/
def Line.unprinted (l : Line) : Line := { l with print := .notQueued }

/-- A sale without what the composer writes: the print states and the next-to-queue index (R125). -/
def Sale.unprinted (o : Sale) : Sale := { o with lines := o.lines.map Line.unprinted, nextToQueue := 0 }

/-- The sale record unit without what the composer writes. -/
def Sru.unprinted (u : Sru) : Sru :=
  { u with openSlot := u.openSlot.map Sale.unprinted, closing := u.closing.map Sale.unprinted }

/-- The parts that change when a solenoid request may be granted: the till, and the disturbance window. -/
def State.grantParts (s : State) : List Part := if s.pbu.solenoidReq.isSome then [.till, .weighing] else []

/-- The parts that an entry of the print queue may change: the printer, and for an IDLE printer that goes on (R135) PBU,
what an examination of PBU may grant (R151), and tables that wait for a resting printer (R182). -/
def State.printParts (s : State) : List Part :=
  if s.pen.state = .idle then
    [.printer, .budget] ++ s.grantParts ++ (if s.printTablesWait then [.tables] else [])
  else [.printer]

/-- The notice kinds that go with those: WEIGHT, PRINTER and TABLE. -/
def State.printKinds (s : State) : List Nat := if s.pen.state = .idle then [2, 12, 13] else []

/-- What a settlement leaves (R84, R55, R57, R60, R108): the sale `o`, its lines and change made, is SETTLED with the number
of the store, in the closing slot if that was free; the image counts it unless the store is DAMAGED; an INTACT store starts
the TOTALS write, or holds it pending while a write is in flight or the supply warning is on; SALE reports it; posted cash
issues an authorization, which a CLOSED drawer with an empty slot takes. -/
def SettledAs (o : Sale) (u t : State) : Prop :=
  let number := if u.sst.image.saleCounter = 999999 then 1 else u.sst.image.saleCounter + 1
  let settled := { o with state := .settled, saleNumber := if u.sst.state = StoreState.damaged then none else some number }
  let counted := { u.sst.image with
    saleCounter := number, grandTotal := min 999999999999 (u.sst.image.grandTotal + o.itemTotal.toNat) }
  let cash := o.lines.any fun l => l.kind == .cash && l.state == .posted
  t.sru.unprinted =
    (match u.sru.closing with
     | none =>
       { u.sru with openSlot := none, closing := some { settled with state := .closing, closingKind := some .settled } }
     | some _ => { u.sru with openSlot := some settled }).unprinted ∧
  (u.sst.state = .intact → t.sst =
    if u.sst.inFlight = none ∧ u.pbu.warning = false then
      { u.sst with
        image := counted, pendingTotals := false
        inFlight := some ⟨.totals counted.saleCounter counted.grandTotal, u.clock + 50000⟩ }
    else { u.sst with image := counted, pendingTotals := true }) ∧
  (u.sst.state = .fault → t.sst = { u.sst with image := counted }) ∧
  (u.sst.state = .damaged → t.sst = u.sst) ∧
  Notified t (.sale o.tag (.live .settled) o.incomplete) ∧
  (cash = true → u.tlc.state = .closed → u.tlc.auth = none → t.tlc.auth = some (.settledCash o.tag)) ∧
  (cash = false → t.tlc.auth = u.tlc.auth)

/-- What entering the closing slot makes of the slots (R60): a SETTLED or ABORTED sale of the open slot enters a free
closing slot as CLOSING with its kind. -/
def Sru.entered (u : Sru) : Sru :=
  match u.closing, u.openSlot with
  | none, some o =>
    match o.closes with
    | some k => { u with openSlot := none, closing := some { o with state := .closing, closingKind := some k } }
    | none => u
  | _, _ => u

/-- The printer has halted at a halt test (R137, R138): a kept mark first, COVER_OPEN before PAPER_OUT, both marks cleared,
else the supply warning; PRINTER is raised. -/
def HaltedFor (s t : State) : Prop :=
  let reason : HaltReason := if s.pen.coverMark then .coverOpen else if s.pen.paperMark then .paperOut else .supply
  t.pen.state = .halted reason ∧ t.pen.paperMark = false ∧ t.pen.coverMark = false ∧
  Notified t (.printer (.halted reason) s.pen.nearEnd)

/-- The parts that a settlement or an abort may change. -/
def closingParts : List Part := [.weighing, .store, .sale, .stripe, .till, .printer, .budget, .accessory, .tables]

/-- The parts that leaving CAL may change besides the channel, since the till's hold lifts (R47, R109). -/
def State.holdParts (s : State) : List Part := if s.wch.state = .cal then [.till, .budget, .printer] else []

/-- The part that the end of a waiting capture may change besides the channel: the held read (R20, R167). -/
def State.slotParts (s : State) : List Part := if s.wch.capture.isSome then [.accessory] else []

/-- The parts that a hold coming into force may change: a drawer in WAIT_GRANT withdraws its request (R109, R116). -/
def State.withdrawParts (s : State) : List Part :=
  if s.tlc.state = .waitGrant then [.till, .budget, .printer] else []

/-- The parts that the drawer switch may change besides the till: it ends a pulse, and withdraws a waiting request (R110,
R111). -/
def State.switchParts (s : State) : List Part :=
  match s.tlc.state with
  | .waitGrant => [.budget, .weighing, .printer]
  | .pulsing _ => [.budget, .weighing, .printer]
  | .closed => []
  | .confirming _ => []
  | .opened _ _ => []
  | .overdue _ => []
  | .jammed => []

/-- The bits of a character of `w` data bits on a stripe: its value least significant first, then odd parity (R94). -/
def charBits (w v : Nat) : List Bool :=
  let data := (List.range w).map fun i => v.testBit i
  data ++ [data.count true % 2 == 0]

/-- The bits of a track: its characters, then the LRC that their values give (R94, R97). -/
def trackBits (w : Nat) (values : List Nat) : List Bool :=
  values.flatMap (charBits w) ++ charBits w (values.foldl (· ^^^ ·) 0)

/-- Every active bank and every generation is the same. -/
def State.sameActive (s t : State) : Prop :=
  t.tbs.item.active = s.tbs.item.active ∧ t.tbs.code.active = s.tbs.code.active ∧
  t.tbs.font.active = s.tbs.font.active ∧ t.tbs.cardFormat.active = s.tbs.cardFormat.active ∧
  t.tbs.headerTrailer.active = s.tbs.headerTrailer.active ∧ ∀ n, t.tbs.generation n = s.tbs.generation n

/-! ## Resets -/

/-- What every reset leaves, but for the store, the tables and the two counters that a link reset keeps (R188): STARTUP is
being sent, and of the pending set there stand only the notices that the reset's own checks and input levels raise. That a
unit of role NONE is UNKNOWN with no misses is the model's choice (log 53). -/
def ResetTo (cause : ResetCause) (pins : Pins) (s t : State) : Prop :=
  t.pending = s.pending ∧ t.pins = pins ∧
  -- the lane link (R188, R189, R193 to R195, R197, R198)
  t.lli.phase = .hunt ∧ t.lli.requests = [] ∧ t.lli.responses = [] ∧ t.lli.accUps = [] ∧ t.lli.linkError = false ∧
  t.lli.lane = .unconfigured ∧ t.lli.resetCause = cause ∧ t.lli.params = Params.defaults ∧
  t.lli.mask = Vector.replicate 15 true ∧ t.lli.resetAnswer = .none ∧ t.lli.startupDue = some (t.clock + 1000000) ∧
  t.lli.sending = some (.notice (.startup cause)) ∧
  (∀ n ∈ t.lli.notices, (n = .supply true ∧ pins.supplyWarning = true) ∨
    (n = .drawer t.tlc.state false none ∧ pins.drawerOpen = true) ∨
    (n = .printer t.pen.state pins.nearEnd ∧ t.pen.state ≠ .idle) ∨ (n = .store .damaged ∧ t.sst.state = .damaged)) ∧
  -- the weighing channel (R28)
  t.wch.state = .starting ∧ t.wch.ring = [] ∧ t.wch.count = 0 ∧ t.wch.zo = 0 ∧ t.wch.zi = none ∧ t.wch.tare = .none ∧
  t.wch.window = .closed ∧ t.wch.capture = none ∧ t.wch.interlock = false ∧ t.wch.cal = none ∧
  t.wch.calSwitchClosed = false ∧ t.wch.last = none ∧ t.wch.stabRef = none ∧ t.wch.stabCount = 0 ∧
  t.wch.faultCause = none ∧ t.wch.testOffset = none ∧ t.wch.zeroLimit = false ∧ t.wch.zeroOut = false ∧
  t.wch.trackDue = none ∧ t.wch.lateCancel = false ∧ t.wch.watch = some (t.clock + 12500) ∧
  t.wch.ind = ⟨false, false, false, false, false⟩ ∧
  -- the sale (R88)
  t.sru.openSlot = none ∧ t.sru.closing = none ∧ t.sru.stack = [] ∧ t.sru.lateAnswer = false ∧
  -- the stripe decoder (R106)
  t.sdc.trackA.state = .idle ∧ t.sdc.trackB.state = .idle ∧ t.sdc.swipe = none ∧ t.sdc.slot = .empty ∧
  -- the till (R119)
  t.tlc.auth = none ∧ t.tlc.retries = 0 ∧ t.tlc.switchOpen = pins.drawerOpen ∧
  t.tlc.state = (if pins.drawerOpen then .opened false (t.clock + 30000000) else .closed) ∧
  (pins.drawerOpen = true → Notified t (.drawer t.tlc.state false none)) ∧
  -- the printer (R145) and the budget (R156)
  t.pen.queue = [] ∧ t.pen.feed = 0 ∧ t.pen.sinceGlyph = 0 ∧ t.pen.owed = none ∧ t.pen.paperMark = false ∧
  t.pen.coverMark = false ∧ t.pen.context = ⟨none, false, false⟩ ∧ t.pen.nearEnd = pins.nearEnd ∧
  t.pen.paperOut = pins.paperOut ∧ t.pen.coverOpen = pins.coverOpen ∧ t.pen.headHot = pins.headHot ∧
  t.pen.home = pins.cutterHome ∧
  t.pen.state = (if pins.cutterHome = false then .halted .cutter
                 else if pins.coverOpen then .halted .coverOpen
                 else if pins.paperOut then .halted .paperOut
                 else if pins.supplyWarning then .halted .supply
                 else .idle) ∧
  (t.pen.state ≠ .idle → Notified t (.printer t.pen.state pins.nearEnd)) ∧
  t.pbu.grants = [] ∧ t.pbu.pulse = none ∧ t.pbu.strobe = false ∧ t.pbu.arbiter = none ∧ t.pbu.solenoidReq = none ∧
  t.pbu.phaseReq = none ∧ t.pbu.warning = pins.supplyWarning ∧
  (pins.supplyWarning = true → Notified t (.supply true)) ∧
  -- the accessory port (R172)
  t.acp.queue = [] ∧ t.acp.held = none ∧ t.acp.blocked = 0 ∧ t.acp.mirrorDue = none ∧ t.acp.lastSent = false ∧
  t.acp.later = [] ∧ (t.acp.units.get 1).role = .scanner ∧ (t.acp.units.get 2).role = .display ∧
  (t.acp.units.get 3).role = .none ∧ (t.acp.units.get 4).role = .none ∧
  (∀ n, (t.acp.units.get n).presence = .unknown ∧ (t.acp.units.get n).misses = 0) ∧
  -- the load session (R187)
  t.tbs.session = none

/-- The store as a reset's check finds it (R54): every figure read into the image, and INTACT exactly when the integrity
word is the CRC of the figures. -/
def CheckedStore (array : SealedFigures) (word : BitVec 16) (t : State) : Prop :=
  t.sst.array = array ∧ t.sst.word = word ∧ t.sst.image = array ∧ t.sst.inFlight = none ∧ t.sst.pendingTotals = false ∧
  t.sst.state = (if integrityWord array = word then .intact else .damaged) ∧
  (t.sst.state = .damaged → Notified t (.store .damaged))

/-! ## Filtered updates -/

/-- The samples that F averages once the sample `v` has entered the ring (R3). -/
def State.newest (v : Int) (s : State) : List Int :=
  ((s.substitute v :: s.wch.ring).take 64).take s.lli.params.filterLength

/-- F of the update that the sample `v` forms (R3). -/
def State.formed (v : Int) (s : State) : Int := roundHalfAway (s.newest v).sum s.lli.params.filterLength

/-- The update that the sample `v` forms finds the channel stable (R10): the window is closed, the gross lies within ten
intervals of the reference, or F within 160 counts where no record gives a gross, and the count reaches the stability
count. -/
def StableAt (v : Int) (s : State) : Prop :=
  s.wch.window = .closed ∧
  (∃ ref, s.wch.stabRef = some ref ∧
    match s.record? with
    | some r => |r.gross s.wch.zo (s.formed v) - ref| ≤ (10 * r.e1 : Nat)
    | none => |s.formed v - ref| ≤ 160) ∧
  s.lli.params.stabilityCount ≤ min 200 (s.wch.stabCount + 1)

/-! ## Captures -/

/-- The sample `v` completes the waiting capture `c` of the open sale `o` with the figures `g` under the record `r` (R21):
it is no extreme sample and completes a full ring in RUNNING, the gross stays within the band of the reference for long
enough, the window is closed, no limit is passed, the interlock is clear, and the certified mass is in the capture band. -/
def CapturesAt (v : Int) (r : CalRecord) (c : Capture) (o : Sale) (g : Figures) (s : State) : Prop :=
  s.wch.state = .running ∧ s.wch.refill = none ∧ s.record? = some r ∧ s.wch.capture = some c ∧ s.openSale? = some o ∧
  s.acp.held = none ∧ s.wch.window = .closed ∧ s.wch.interlock = false ∧
  s.lli.params.filterLength ≤ min 64 (s.wch.count + 1) ∧
  (let newest := ((v :: s.wch.ring).take 64).take s.lli.params.filterLength
   8388607 ∉ newest ∧ -8388608 ∉ newest ∧
   g = r.figures s.wch.zo s.wch.tare (roundHalfAway newest.sum s.lli.params.filterLength)) ∧
  (∃ ref, s.wch.stabRef = some ref ∧ |g.gross - ref| ≤ (10 * r.e1 : Nat)) ∧
  s.lli.params.stabilityCount ≤ min 200 (s.wch.stabCount + 1) ∧
  g.gross ≤ ((r.max + 9 * r.e2) * 10 : Nat) ∧ -((20 * r.e1 * 10 : Nat) : Int) ≤ g.gross ∧
  ((20 * r.e1 * 10 : Nat) : Int) ≤ g.certified ∧ g.certified ≤ (r.max * 10 : Nat)

/-- What the channel does when a capture completes, whatever became of the line (R21): the slot empties, the interlock is
set, a WEIGHED tare stays and any other tare is gone, and CAPTURE carries the result. -/
def CaptureDone (c : Capture) (result : CaptureResult) (line : Option Nat) (s t : State) : Prop :=
  t.wch.capture = none ∧ t.wch.interlock = true ∧ t.wch.lateCancel = true ∧ t.wch.state = .running ∧
  t.wch.tare = (match s.wch.tare with
                | .weighed x => .weighed x
                | .none => .none
                | .preset _ => .none
                | .item _ => .none) ∧
  Notified t (.capture c.source result line)

/-! ## Codes -/

/-- An entry of the code table is the one that R163 chooses for the digits `ds`: it matches, and no other that matches has a
longer prefix, or the same with a fixed total length over any. -/
def Chosen (table : List CodeEntry) (ds : List Byte) (e : CodeEntry) : Prop :=
  let fits := fun f : CodeEntry => f ∈ table ∧ f.lead <+: ds ∧ (f.total = 0 ∨ f.total = ds.length)
  fits e ∧ ∀ f, fits f → f ≠ e →
    f.lead.length < e.lead.length ∨ (f.lead.length = e.lead.length ∧ e.total ≠ 0 ∧ f.total = 0)

/-- The weight of each digit from the right, 3 and 1 in turn, summed (R164). -/
def alternateSum (ds : List Byte) : Nat :=
  (ds.reverse.zipIdx.map fun p => (if p.2 % 2 = 0 then 3 else 1) * (p.1.toNat - 48)).sum

/-- The last of the digits is their check digit (R164): with it, three times the digits at every other place from it and the
rest once make a multiple of ten. -/
def CheckDigitHolds (ds : List Byte) : Prop :=
  ∃ body c, ds = body ++ [c] ∧ (alternateSum body + (c.toNat - 48)) % 10 = 0

/-- The decimal number of `length` digits from digit `start` of a read, counted from 1 (R164). -/
def decimalField (ds : List Byte) (start length : Nat) : Nat :=
  (((ds.drop (start - 1)).take length).map fun d => d.toNat - 48).foldl (fun n d => 10 * n + d) 0

/-! ## Table records (R174 to R176, R178; the order of the fields is that of log 27) -/

/-- An item record as its bytes. -/
def itemRecord (plu : Nat) (text : List Byte) (basis price : Nat) (tare : Option Nat) (refer : Bool) : List Byte :=
  natBytes 4 plu ++ natBytes 1 text.length ++ text ++ natBytes 1 basis ++ natBytes 4 price ++
  (match tare with
   | none => [0]
   | some p => 1 :: natBytes 2 p) ++ natBytes 1 refer.toNat

/-- A field of a code record, present or absent, as its bytes. -/
def spanRecord : Option (Nat × Nat) → List Byte
  | none => [0]
  | some f => 1 :: (natBytes 1 f.1 ++ natBytes 1 f.2)

/-- A code record as its bytes. -/
def codeRecord (lead : List Byte) (total : Nat) (check : Bool) (action : Nat) (plu price : Option (Nat × Nat)) : List Byte :=
  natBytes 1 lead.length ++ lead ++ natBytes 1 total ++ natBytes 1 check.toNat ++ natBytes 1 action ++ spanRecord plu ++
  spanRecord price

/-- A header/trailer record as its bytes. -/
def headerRecord (kind position : Nat) (text : List Byte) (double : Bool) : List Byte :=
  natBytes 1 kind ++ natBytes 1 position ++ natBytes 1 text.length ++ text ++ natBytes 1 double.toNat

/-- What becomes of a record of the open session (R178): with no reason of failure it enters the load bank as `put` says,
the count rises by one and the idle timer runs again; with a reason it is refused, and the session is aborted as INVALID at
the record's position, the bank empty and the active tables untouched. -/
def RecordTaken (tag : Byte) (entry : List Byte) (x : Session) (failure : Option Reason) (put : Tbs → Tbs) (s : State) :
    Prop :=
  match failure with
  | none =>
    Serves (.tableRecord tag entry) tag s .ok (fun _ => [.int 2 (x.count + 1 : Nat)]) [.tables] [] fun u t =>
      t.tbs = { put u.tbs with session := some ⟨x.table, x.count + 1, u.clock + 2000000⟩ }
  | some r =>
    Serves (.tableRecord tag entry) tag s (.refused r) (fun _ => []) [.tables] [13] fun u t =>
      t.tbs.session = none ∧ t.tbs.loadState x.table = .empty ∧ (t.tbs.look x.table fun _ b => b.load.length) = 0 ∧
      u.sameActive t ∧ Notified t (.table x.table (u.tbs.generation x.table) (.invalid r (x.count + 1)))

/-! ## Invariants -/

/-- The costs of the grant list stay within the budget (R146, R151). -/
def BudgetKept (s : State) : Prop := grantSum s.pbu.grants ≤ 64

/-- A list of notices stands in strictly ascending kind number. -/
def ascending : List Notice → Prop
  | [] => True
  | [_] => True
  | m :: n :: ns => m.kind < n.kind ∧ ascending (n :: ns)

/-- The queues of the lane link stay within their capacities (R193, R194), and the pending set holds each kind at most once,
in ascending number (R195). ACP visits a unit only while the accessory part has room (R159). -/
def LinkKept (s : State) : Prop :=
  s.lli.requests.length ≤ 8 ∧ s.lli.responses.length ≤ 8 ∧ s.lli.accUps.length ≤ 24 ∧
  (s.acp.visit.isSome = true → s.lli.accUps.length < 24) ∧ s.acp.queue.length ≤ 16 ∧ ascending s.lli.notices

/-- The print queue and the two paper counters stay within their ranges (R122, R133). -/
def PaperKept (s : State) : Prop := s.pen.queue.length ≤ 48 ∧ s.pen.feed ≤ 255 ∧ s.pen.sinceGlyph ≤ 255

/-- The suspended stack with its reservation holds at most three sales (R58), and no sale of the open slot outgrows its line
list and its referral list (R65, R73): while a card tender waits, a line's place is left for it (R77). -/
def SalesKept (s : State) : Prop :=
  s.sru.stack.length + (if s.sru.reserved then 1 else 0) ≤ 3 ∧
  (∀ o ∈ s.sru.openSlot, o.lines.length ≤ 200 ∧ o.referrals.length ≤ 4 ∧ (o.state = .authWait → o.lines.length < 200)) ∧
  (∀ o ∈ s.sru.stack, o.lines.length ≤ 200 ∧ o.referrals.length ≤ 4) ∧
  (∀ o ∈ s.sru.closing, o.lines.length ≤ 200 ∧ o.referrals.length ≤ 4)

/-- Every parameter lies in its range (R197). -/
def ParamsKept (s : State) : Prop :=
  s.lli.params.filterLength ∈ [8, 16, 32, 64] ∧
  20 ≤ s.lli.params.stabilityCount ∧ s.lli.params.stabilityCount ≤ 200 ∧
  500 ≤ s.lli.params.captureTimeout ∧ s.lli.params.captureTimeout ≤ 10000 ∧
  50 ≤ s.lli.params.disturbanceSettle ∧ s.lli.params.disturbanceSettle ≤ 500 ∧
  10 ≤ s.lli.params.cardExpiry ∧ s.lli.params.cardExpiry ≤ 300 ∧
  30 ≤ s.lli.params.authTimeout ∧ s.lli.params.authTimeout ≤ 300 ∧
  30 ≤ s.lli.params.referralTimeout ∧ s.lli.params.referralTimeout ≤ 600 ∧
  20 ≤ s.lli.params.drawerPulse ∧ s.lli.params.drawerPulse ≤ 200 ∧
  200 ≤ s.lli.params.drawerConfirm ∧ s.lli.params.drawerConfirm ≤ 2000 ∧
  5 ≤ s.lli.params.drawerOverdue ∧ s.lli.params.drawerOverdue ≤ 300 ∧
  64 ≤ s.lli.params.printDensity ∧ s.lli.params.printDensity ≤ 384 ∧
  24 ≤ s.lli.params.linePitch ∧ s.lli.params.linePitch ≤ 48 ∧
  s.lli.params.amountDecimals ≤ 3 ∧ s.lli.params.maskLeadDigits ≤ 6

/-- The ring, its count and the stable count stay within their ranges (R3, R10), and a channel in FAULT keeps no tare, no
tracking timer, no converter watch and no calibration (R2, R7). -/
def ChannelKept (s : State) : Prop :=
  s.wch.ring.length ≤ 64 ∧ s.wch.count ≤ 64 ∧ s.wch.stabCount ≤ 200 ∧
  (s.wch.state = .fault → s.wch.tare = .none ∧ s.wch.trackDue = none ∧ s.wch.watch = none ∧ s.wch.cal = none ∧
    s.wch.capture = none)

/-- All the invariants together. -/
def Kept (s : State) : Prop := BudgetKept s ∧ LinkKept s ∧ PaperKept s ∧ SalesKept s ∧ ParamsKept s ∧ ChannelKept s

end Sys2Proof.Machine
end

