-- ==== Sys2Proof/WellFormed.lean ====
section
/-! DEFINITION. What a command's operands must be: each field of a request within what its bytes carry (R190), a payload of
at most 250 bytes (R190), and an event's operand what its rule gives it. A command that is not well-formed is no command of
the part; `exec` still gives it a meaning (log 37). -/

namespace Sys2Proof

/-- An unsigned integer fits its bytes. -/
def fitsNat (bytes v : Nat) : Bool := decide (v < 256 ^ bytes)

/-- A signed integer fits 4 bytes. -/
def fitsInt (v : Int) : Bool := decide (-2147483648 ≤ v) && decide (v ≤ 2147483647)

/-- A sample of 24 bits (R1). -/
def isSample (v : Int) : Bool := decide (-8388608 ≤ v) && decide (v ≤ 8388607)

/-- The name, its end byte and `size` bytes of fields fit a payload (R190). -/
def payloadFits (name : String) (size : Nat) : Bool := decide (name.length + 1 + size ≤ 250)

/-- A name or text with its count byte. -/
def textSize (t : List Byte) : Nat := 1 + t.length

/-- The place byte of LINE_READ: OPEN and CLOSING are 0 and 1, any other is at least 2. -/
def SalePlace.wellFormed : SalePlace → Bool
  | .opened => true
  | .closing => true
  | .other c => decide (2 ≤ c) && fitsNat 1 c

/-- The price of an acceptance. -/
def ReferralPrice.wellFormed : ReferralPrice → Bool
  | .unitPrice u => fitsNat 4 u
  | .amount a => fitsInt a

/-- A payload that the router answers by itself (R193). -/
def isNoRequest (tag : Byte) (payload : List Byte) : Bool :=
  decide (payload.length ≤ 250) &&
  (match parsePayload tag payload with
   | .request _ => false
   | .unknown => true
   | .badSize => true
   | .badSelector => true)

/-- A command is well-formed. -/
def Instr.wellFormed : Instr → Bool
  | .powerReset _ => true
  | .pinReset _ => true
  | .resetAfterWrite _ _ => true
  | .linkReset _ => true
  | .startupTimer => true
  | .laneFrameReceived _ => true
  | .receiveGapTimeout => true
  | .unknownRequest tag payload => isNoRequest tag payload
  | .transmitEnd => true
  | .controllerReset _ => true
  | .laneStart _ => true
  | .setNoticeMask _ _ => true
  | .readEvents _ => true
  | .setParam _ name _ => payloadFits "SET_PARAM" (textSize name + 4)
  | .getParam _ name => payloadFits "GET_PARAM" (textSize name)
  | .laneStatus _ => true
  | .sample v => isSample v
  | .converterWatch => true
  | .zeroTrackingExpiry => true
  | .captureTimerExpiry => true
  | .disturbanceWindowClose => true
  | .weighRestart _ => true
  | .weighZero _ => true
  | .weighTare _ => true
  | .weighPresetTare _ grams => fitsNat 2 grams
  | .weighClearTare _ => true
  | .weighCapture _ plu => fitsNat 4 plu
  | .weighCancel _ => true
  | .weighTestOn _ offset => fitsInt offset
  | .weighTestOff _ => true
  | .weighRead _ => true
  | .calibrationSwitchChange _ => true
  | .calEnter _ => true
  | .calLeave _ => true
  | .calZero _ => true
  | .calSpan _ mcal => fitsNat 2 mcal
  | .calRanges _ max1 e1 max e2 => fitsNat 2 max1 && fitsNat 1 e1 && fitsNat 2 max && fitsNat 1 e2
  | .calStepTimeout => true
  | .calCommit _ => true
  | .storeRead _ => true
  | .writeComplete => true
  | .writeTimeout => true
  | .saleOpen _ => true
  | .itemAdd _ plu quantity => fitsNat 4 plu && fitsNat 2 quantity
  | .itemText _ text amount => payloadFits "ITEM_TEXT" (textSize text + 4) && fitsInt amount
  | .lineVoid _ line => fitsNat 1 line
  | .referralAnswerAccept _ line price => fitsNat 1 line && price.wellFormed
  | .referralAnswerReject _ line => fitsNat 1 line
  | .referralTimerExpiry line => fitsNat 1 line
  | .tenderCash _ amount => fitsNat 4 amount
  | .tenderCard _ amount serial => fitsNat 4 amount && fitsNat 2 serial
  | .cardApprove _ code => payloadFits "CARD_APPROVE" (textSize code)
  | .cardDecline _ => true
  | .authorizationTimeout => true
  | .saleSuspend _ => true
  | .saleResume _ => true
  | .saleAbort _ => true
  | .noSale _ => true
  | .saleRead _ => true
  | .lineRead _ place line => place.wellFormed && fitsNat 1 line
  | .swipeEnd => true
  | .cardRecordExpiry => true
  | .cardRead _ => true
  | .cardRelease _ serial => fitsNat 2 serial
  | .drawerSwitchOpens => true
  | .drawerSwitchCloses => true
  | .pulseTimerExpiry => true
  | .confirmTimerExpiry => true
  | .overdueTimerExpiry => true
  | .tillClear _ => true
  | .tillRead _ => true
  | .phaseEnd => true
  | .rowEnd => true
  | .feedStepEnd => true
  | .cutterCycleComplete => true
  | .cutterTimeout => true
  | .paperOutChange _ => true
  | .coverOpenChange _ => true
  | .headHotChange _ => true
  | .paperNearEndChange _ => true
  | .printResume _ => true
  | .printDiscard _ => true
  | .printText _ text _ _ => payloadFits "PRINT_TEXT" (textSize text + 2)
  | .printFeed _ rows => fitsNat 1 rows
  | .printCut _ => true
  | .printRead _ => true
  | .grantExpiry => true
  | .supplyWarningChange _ => true
  | .budgetRead _ => true
  | .roundStart => true
  | .accessoryAnswer _ => true
  | .answerTimeout => true
  | .mirrorTimer => true
  | .accessoryRead _ => true
  | .tableBegin _ name => payloadFits "TABLE_BEGIN" (textSize name)
  | .tableRecord _ entry => payloadFits "TABLE_RECORD" entry.length
  | .tableEnd _ count => fitsNat 2 count
  | .tableIdleTimeout => true
  | .tableCancel _ name => payloadFits "TABLE_CANCEL" (textSize name)
  | .tableRead _ name index => payloadFits "TABLE_READ" (textSize name + 4) && fitsNat 4 index
  | .tableStatus _ => true
  | .stripeFluxTransition _ _ => true
  | .impossibleFrameLength length => !(decide (3 ≤ length.toNat) && decide (length.toNat ≤ 253))
  | .cutterHomeSwitchChange _ => true

end Sys2Proof
end

