-- ==== Sys2Proof/Certificates/Slice0/Obligations.lean ====
section
/-! DEFINITION. The statements for the provers. A request is stated at the router (`Serves`, R193), an event on every state
(`Does`); both say what the command leaves alone (`ChangesOnly`) and which notice kinds it raises, by the numbers of R190:
1 STARTUP, 2 WEIGHT, 3 CAPTURE, 4 CAL, 5 CARD, 6 CARD_CLEARED, 7 REFERRAL, 8 AUTH, 9 SALE, 10 SUPPLY, 11 DRAWER,
12 PRINTER, 13 TABLE, 14 ACCESSORY, 15 STORE. -/

open Sys2Proof Sys2Proof.Machine

/-! ## The queue of commands and the router -/

/-- A step runs the command at the front of the queue (the host's interface for a block). The model's choice (log 3): on an
empty queue one microsecond of the timebase of R89 passes, and nothing else. -/
def Obligations.StepRunsTheFrontCommandOrPassesAMicrosecond : Prop :=
  (∀ (c : Instr) (rest : List Instr) (s : State), s.pending = c :: rest → step s = exec c { s with pending := rest }) ∧
  (∀ s : State, s.pending = [] → step s = .next { s with clock := s.clock + 1 })

/-- R193, with the model's convention of log 6: a request that does not come to the router at once joins the tail of a queue
of fewer than eight, is refused BUSY_LINK by a full one, is dropped with the link error flag when the response part is full
as well, and waits at the head while the router takes nothing. R193: a payload that names no request is refused UNKNOWN, one
of a wrong size LENGTH; the reason for a selector that names no alternative is free (log 2). That a payload without a byte
0x00 is UNKNOWN is the model's choice (log 61). Nothing else changes. -/
def Obligations.RequestsQueueOrAreRefusedByTheRouter : Prop :=
  (∀ (i : Instr) (tag : Byte) (s : State), i.tag? = some tag → i.wellFormed = true →
     (s.lli.requests = [] → routerOpen s = false →
       Does i s [.requests] [] fun t => t.lli.requests = [i]) ∧
     (∀ r rest, s.lli.requests = r :: rest → r ≠ i → s.lli.requests.length < 8 →
       Does i s [.requests] [] fun t => t.lli.requests = s.lli.requests ++ [i]) ∧
     (∀ r rest, s.lli.requests = r :: rest → r ≠ i → 8 ≤ s.lli.requests.length → s.lli.responses.length < 8 →
       Does i s [.responses] [] fun t => Answered ⟨tag, .refused .busyLink, [], false⟩ s t) ∧
     (∀ r rest, s.lli.requests = r :: rest → r ≠ i → 8 ≤ s.lli.requests.length → 8 ≤ s.lli.responses.length →
       Does i s [.link] [] fun t => t.lli.settings = { s.lli.settings with linkError := true }) ∧
     (∀ rest, s.lli.requests = i :: rest → routerOpen s = false → Does i s [] [] fun _ => True)) ∧
  (∀ (tag : Byte) (payload : List Byte) (s : State),
     (parsePayload tag payload = .unknown → Refuses (.unknownRequest tag payload) tag s .unknown) ∧
     (parsePayload tag payload = .badSize → Refuses (.unknownRequest tag payload) tag s .length) ∧
     (parsePayload tag payload = .badSelector → ∃ r, Refuses (.unknownRequest tag payload) tag s r))

/-- R26: whatever command, unless it resets the part or ends a frame, WEIGHT is raised when the channel state or an
indication bit has changed at its end. -/
def Obligations.WeightRaisedForEveryChange : Prop :=
  ∀ (i : Instr) (s t : State), (∀ pins, i ≠ .powerReset pins ∧ i ≠ .pinReset pins ∧ i ≠ .linkReset pins) →
    i ≠ .transmitEnd → s.lli.awaited = none → exec i s = .next t → s.wch.detail ≠ t.wch.detail →
    Notified t t.wch.detail

/-! ## Resets (R188, R54, R56) -/

/-- R188, R54: a power reset takes effect at once; every block takes its reset values, the tag and swipe counters and the
tables theirs, and the store is checked; a write in flight is cut off and leaves the store DAMAGED. R188, R56: a pin reset
restores every block as a power reset does when no sealed write is in flight, and else waits for its end. The model's
choice, not the spec's: a unit of role NONE is UNKNOWN as well (log 53). -/
def Obligations.PowerAndPinResetsRestoreEveryBlock : Prop :=
  (∀ (pins : Pins) (s : State), Completes (.powerReset pins) s fun t =>
     ResetTo .power pins s t ∧ t.clock = s.clock ∧ t.sru.nextTag = 1 ∧ t.sdc.counter = 0 ∧ t.tbs = Tbs.cleared ∧
     (s.sst.inFlight = none → CheckedStore s.sst.array s.sst.word t) ∧
     (s.sst.inFlight ≠ none → t.sst.state = .damaged ∧ Notified t (.store .damaged))) ∧
  (∀ (pins : Pins) (s : State),
     (s.sst.inFlight = none → Completes (.pinReset pins) s fun t =>
       ResetTo .pin pins s t ∧ t.clock = s.clock ∧ t.sru.nextTag = 1 ∧ t.sdc.counter = 0 ∧ t.tbs = Tbs.cleared ∧
       CheckedStore s.sst.array s.sst.word t) ∧
     (s.sst.inFlight ≠ none →
       exec (.pinReset pins) s = .next { s with lli := { s.lli with pinReset := true } }))

/-- R56: a pin or link reset that waits for a sealed write takes effect with the end of that write: a completed write
stands in the store with its integrity word, and one that timed out leaves the array as it was (log 43). With none waiting
the event is not this one (log 5). The model's choice, not the spec's: the reset is performed within the event that ends
the write (log 8), where both resets wait its cause is PIN (log 10), and a unit of role NONE is UNKNOWN after it (log 53).
-/
def Obligations.ResetAfterWriteFollowsTheWrite : Prop :=
  ∀ (how : WriteEnd) (pins : Pins) (s : State),
    (∀ w cause, s.sst.inFlight = some w → s.lli.awaited = some cause →
      Completes (.resetAfterWrite how pins) s fun t =>
        ResetTo cause pins s t ∧ t.sru.nextTag = (if cause = .link then s.sru.nextTag else 1) ∧
        t.sdc.counter = (if cause = .link then s.sdc.counter else 0) ∧
        (how = .completed → t.sst.array = w.data.into s.sst.array ∧ t.sst.image = t.sst.array ∧ t.sst.state = .intact) ∧
        (how = .timedOut → CheckedStore s.sst.array s.sst.word t)) ∧
    (s.lli.awaited = none → exec (.resetAfterWrite how pins) s = .next s)

/-! ## The lane link -/

/-- R190 to R193: a whole frame of the controller with a good check, arriving while the assembler hunts, puts its request
in the queue; a full queue refuses it BUSY_LINK, or drops it with the link error flag where the response part is full too.
R161: one for an accessory unit goes to the downstream queue; it is discarded with ACCESSORY cause DISCARD where the unit's
role is NONE or its presence ABSENT, and with the link error flag where the queue is full. R192: one of another unit and
kind, and R191: one with a bad check, sets the link error flag. R191: a gap in a frame, or a length byte outside 3 to 253,
discards the partial frame: the assembler hunts and the link error flag is set. -/
def Obligations.ReceivedFramesAreTakenOrDiscarded : Prop :=
  let hunts := fun s : State => { s.lli.settings with phase := .hunt, rxLength := 0, rxBody := [], rxCheck := [] }
  let errs := fun s : State => { hunts s with linkError := true }
  ((∀ (tag : Byte) (payload : List Byte) (s : State), s.lli.phase = .hunt → payload.length ≤ 250 →
     (s.lli.requests.length < 8 →
       Does (.laneFrameReceived (frameBytes 0 1 tag payload)) s [.link, .requests] [] fun t =>
         t.lli.settings = hunts s ∧ t.lli.requests = s.lli.requests ++ [parseRequest tag payload]) ∧
     (8 ≤ s.lli.requests.length → s.lli.responses.length < 8 →
       Does (.laneFrameReceived (frameBytes 0 1 tag payload)) s [.link, .responses] [] fun t =>
         t.lli.settings = hunts s ∧ Answered ⟨tag, .refused .busyLink, [], false⟩ s t) ∧
     (8 ≤ s.lli.requests.length → 8 ≤ s.lli.responses.length →
       Does (.laneFrameReceived (frameBytes 0 1 tag payload)) s [.link] [] fun t => t.lli.settings = errs s)) ∧
   (∀ (unit : Nat) (tag : Byte) (payload : List Byte) (s : State), s.lli.phase = .hunt → payload.length ≤ 250 →
     1 ≤ unit → unit ≤ 4 →
     let down := Instr.laneFrameReceived (frameBytes unit 4 tag payload)
     let gone := (s.acp.units.get unit).role = .none ∨ (s.acp.units.get unit).presence = .absent
     (¬gone → s.acp.queue.length < 16 →
       Does down s [.link, .accessory] [] fun t =>
         t.lli.settings = hunts s ∧ t.acp.queue = s.acp.queue ++ [⟨unit, tag, payload, false⟩] ∧
         t.acp.units = s.acp.units ∧ t.acp.held = s.acp.held) ∧
     (gone → Does down s [.link] [14] fun t =>
       t.lli.settings = hunts s ∧
       Notified t (.accessory .discard unit (s.acp.units.get unit).presence none none s.acp.blocked)) ∧
     (¬gone → 16 ≤ s.acp.queue.length → Does down s [.link] [] fun t => t.lli.settings = errs s)) ∧
   (∀ (unit kind : Nat) (tag : Byte) (payload : List Byte) (s : State), s.lli.phase = .hunt → payload.length ≤ 250 →
     unit < 256 → kind < 256 → ¬(unit = 0 ∧ kind = 1) → ¬(1 ≤ unit ∧ unit ≤ 4 ∧ kind = 4) →
     Does (.laneFrameReceived (frameBytes unit kind tag payload)) s [.link] [] fun t => t.lli.settings = errs s) ∧
   (∀ (body : List Byte) (c d : Byte) (s : State), s.lli.phase = .hunt → 3 ≤ body.length → body.length ≤ 253 →
     checkGood body.length body [c, d] = false →
     Does (.laneFrameReceived (0xA5 :: BitVec.ofNat 8 body.length :: body ++ [c, d])) s [.link] [] fun t =>
       t.lli.settings = errs s)) ∧
  ((∀ s : State, s.lli.phase ≠ .hunt → Does .receiveGapTimeout s [.link] [] fun t => t.lli.settings = errs s) ∧
   (∀ (length : Byte) (s : State), s.lli.phase = .length → (length.toNat < 3 ∨ 253 < length.toNat) →
     Does (.impossibleFrameLength length) s [.link] [] fun t => t.lli.settings = errs s))

/-- R194: at the end of a frame the transmitter sends the oldest response; with none, the enabled pending notice of the
lowest kind, whose flag clears; with none, the oldest accessory frame; else nothing. -/
def Obligations.TransmitterChoosesResponsesThenNoticesThenFrames : Prop :=
  ∀ (s : State) (f : TxFrame), s.lli.sending = some f → (∀ r, f = .response r → r.ofReset = false) →
    s.lli.resetAnswer ≠ .sent →
    (∀ r rs, s.lli.responses = r :: rs →
      exec .transmitEnd s = .next { s with lli := { s.lli with sending := some (.response r), responses := rs } }) ∧
    (∀ n, s.lli.responses = [] → ascending s.lli.notices → n ∈ s.lli.notices → enabled s.lli.mask n = true →
      (∀ m ∈ s.lli.notices, enabled s.lli.mask m = true → n.kind ≤ m.kind) →
      Completes .transmitEnd s fun t =>
        t.lli.sending = some (.notice n) ∧ (∀ m, m ∈ t.lli.notices ↔ m ∈ s.lli.notices ∧ m ≠ n) ∧
        t.lli.accUps = s.lli.accUps ∧ t.acp.blocked = (if n.kind = 14 then 0 else s.acp.blocked) ∧
        { t with lli := s.lli, acp := s.acp } = s) ∧
    (∀ g gs, s.lli.responses = [] → (∀ m ∈ s.lli.notices, enabled s.lli.mask m = false) → s.lli.accUps = g :: gs →
      exec .transmitEnd s = .next { s with lli := { s.lli with sending := some (.accUp g), accUps := gs } }) ∧
    (s.lli.responses = [] → (∀ m ∈ s.lli.notices, enabled s.lli.mask m = false) → s.lli.accUps = [] →
      exec .transmitEnd s = .next { s with lli := { s.lli with sending := none } })

/-- R188: CONTROLLER_RESET is answered OK, and from then on the router takes no request; the link reset itself comes later.
R188, R59, R106, R187: once the response of CONTROLLER_RESET goes out and no sealed write is in flight, a link reset
restores every block, but keeps the tag counter, the swipe counter, the active tables and the generations. The model's
choice, not the spec's (log 8): LINK_RESET is taken while that response is still being sent, and TRANSMIT_END of it
performs the link reset itself, with the input levels that the state holds, after which a unit of role NONE is UNKNOWN (log
53). Requests are taken at the router of log 6. -/
def Obligations.ControllerResetLeadsToTheLinkReset : Prop :=
  (∀ (tag : Byte) (s u : State), AtRouter (.controllerReset tag) s u →
     Completes (.controllerReset tag) s fun t =>
       Answered ⟨tag, .ok, [], true⟩ u t ∧ ChangesOnly [.responses, .link] [] u t ∧
       t.lli.settings = { u.lli.settings with resetAnswer := .waiting } ∧ routerOpen t = false) ∧
  (∀ (pins : Pins) (s : State), s.sst.inFlight = none →
     (s.lli.resetAnswer = .sent ∨ ∃ r, s.lli.sending = some (.response r) ∧ r.ofReset = true) →
     (Completes (.linkReset pins) s fun t =>
       ResetTo .link pins s t ∧ t.sru.nextTag = s.sru.nextTag ∧ t.sdc.counter = s.sdc.counter ∧
       t.tbs.item.active = s.tbs.item.active ∧ t.tbs.code.active = s.tbs.code.active ∧
       t.tbs.font.active = s.tbs.font.active ∧ t.tbs.cardFormat.active = s.tbs.cardFormat.active ∧
       t.tbs.headerTrailer.active = s.tbs.headerTrailer.active ∧
       (∀ n, t.tbs.generation n = s.tbs.generation n ∧ t.tbs.loadState n = .empty) ∧
       CheckedStore s.sst.array s.sst.word t) ∧
     ((∃ r, s.lli.sending = some (.response r) ∧ r.ofReset = true) →
       Completes .transmitEnd s fun t =>
         ResetTo .link s.pins s t ∧ t.sru.nextTag = s.sru.nextTag ∧ t.sdc.counter = s.sdc.counter))

/-- R189, R195, R196: LANE_START makes the lane READY and ends STARTUP, a second one changes nothing; SET_NOTICE_MASK sets
the fifteen flags; READ_EVENTS returns every pending detail in ascending number and clears them. R189: while UNCONFIGURED
the 1 s timer raises STARTUP with the reset cause, and runs on. The model's choices, not the spec's: the mask's fifteen
flags have no count byte (log 60), and the details' fields are those of logs 17 and 57 to 59. Due times are those of log 4,
and requests are taken at the router of log 6. -/
def Obligations.LaneStartNoticesAndEvents : Prop :=
  ((∀ (tag : Byte) (s : State), s.lli.lane = .unconfigured →
     Serves (.laneStart tag) tag s .ok (fun _ => []) [.link] [1] fun u t =>
       t.lli.settings = { u.lli.settings with lane := .ready, startupDue := none } ∧
       ∀ n ∈ t.lli.notices, n.kind ≠ 1) ∧
   (∀ (tag : Byte) (s : State), s.lli.lane = .ready →
     Serves (.laneStart tag) tag s .ok (fun _ => []) [] [] fun _ _ => True) ∧
   (∀ (tag : Byte) (flags : Vector Bool 15) (s : State),
     Serves (.setNoticeMask tag flags) tag s .ok (fun _ => flags.toList.map Field.flag) [.link] [] fun u t =>
       t.lli.settings = { u.lli.settings with mask := flags }) ∧
   (∀ (tag : Byte) (s : State),
     Serves (.readEvents tag) tag s .ok
       (fun u => .int 1 u.lli.notices.length :: u.lli.notices.flatMap fun n => .enum n.kind :: n.fields)
       [.accessory] (List.range 16) fun u t =>
         t.lli.notices = [] ∧
         t.acp = { u.acp with blocked := if (u.lli.notices.any fun n => n.kind == 14) then 0 else u.acp.blocked })) ∧
  (∀ (s : State) (due : Nat), s.lli.startupDue = some due → s.lli.lane = .unconfigured →
     Does .startupTimer s [.clock, .link] [1] fun t =>
       t.clock = max s.clock due ∧ t.lli.settings = { s.lli.settings with startupDue := some (due + 1000000) } ∧
       Notified t (.startup s.lli.resetCause))

/-- R197, R4, R158, R169: SET_PARAM answers the value in effect; each plain parameter takes the value held to its range of
R197; the filter length takes the nearest listed value, the greater of two equally near, and clears stability when it
changes; *display mirror* off stops the mirror timer; *accessory roles* gives each unit its role, SCANNER and DISPLAY to at
most one unit each, the lowest of those given it, and a unit that had NONE waits for the next round. A byte of 0 is NONE, 1
SCANNER, 2 DISPLAY, and above 2 OTHER. An unknown name is refused NOT_FOUND. The model's choices, not the spec's: the value
in effect has four bytes for every parameter (log 65), the first role byte is the value's most significant (log 24), the
four roles have no count byte (log 60), and they change before a held read is discarded (log 54). Requests are taken at the
router of log 6. -/
def Obligations.SetParamTakesTheValueInEffect : Prop :=
  ∀ (tag : Byte) (name : List Byte) (v : BitVec 32) (s : State),
    (paramNamed name = none → Refuses (.setParam tag name v) tag s .notFound) ∧
    (∀ k, paramNamed name = some k → k ≠ .accessoryRoles → k ≠ .displayMirror → k ≠ .filterLength →
      Serves (.setParam tag name v) tag s .ok
        (fun u => ({ u with lli := { u.lli with params := u.lli.params.set k v.toInt } } : State).param k) [.link] []
        fun u t => t.lli.settings = { u.lli.settings with params := u.lli.params.set k v.toInt }) ∧
    (let takes := fun (n : String) (lo hi : Nat) (put : Params → Nat → Params) =>
       name = ascii n →
       Serves (.setParam tag name v) tag s .ok (fun _ => [.int 4 (max (lo : Int) (min (hi : Int) v.toInt))]) [.link] []
         fun u t => t.lli.settings =
           { u.lli.settings with params := put u.lli.params (max (lo : Int) (min (hi : Int) v.toInt)).toNat }
     takes "STABILITY_COUNT" 20 200 (fun p n => { p with stabilityCount := n }) ∧
     takes "CAPTURE_TIMEOUT" 500 10000 (fun p n => { p with captureTimeout := n }) ∧
     takes "DISTURBANCE_SETTLE" 50 500 (fun p n => { p with disturbanceSettle := n }) ∧
     takes "CARD_EXPIRY" 10 300 (fun p n => { p with cardExpiry := n }) ∧
     takes "AUTH_TIMEOUT" 30 300 (fun p n => { p with authTimeout := n }) ∧
     takes "REFERRAL_TIMEOUT" 30 600 (fun p n => { p with referralTimeout := n }) ∧
     takes "DRAWER_PULSE" 20 200 (fun p n => { p with drawerPulse := n }) ∧
     takes "DRAWER_CONFIRM" 200 2000 (fun p n => { p with drawerConfirm := n }) ∧
     takes "DRAWER_OVERDUE" 5 300 (fun p n => { p with drawerOverdue := n }) ∧
     takes "PRINT_DENSITY" 64 384 (fun p n => { p with printDensity := n }) ∧
     takes "LINE_PITCH" 24 48 (fun p n => { p with linePitch := n }) ∧
     takes "AMOUNT_DECIMALS" 0 3 (fun p n => { p with amountDecimals := n }) ∧
     takes "MASK_LEAD_DIGITS" 0 6 (fun p n => { p with maskLeadDigits := n })) ∧
    (name = ascii "CLOSE_BEFORE_SALE" →
      Serves (.setParam tag name v) tag s .ok (fun _ => [.int 4 (if v.toInt = 0 then 0 else 1)]) [.link] [] fun u t =>
        t.lli.settings = { u.lli.settings with params := { u.lli.params with closeBeforeSale := v.toInt != 0 } }) ∧
    ((paramNamed name = some .filterLength →
      Serves (.setParam tag name v) tag s .ok (fun _ => [.int 4 (nearestLength v.toInt)]) [.link, .weighing] [] fun u t =>
        t.lli.params = { u.lli.params with filterLength := nearestLength v.toInt } ∧
        t.wch = (if nearestLength v.toInt = u.lli.params.filterLength then u.wch
                 else { u.wch with stabRef := none, stabCount := 0 })) ∧
     nearestLength v.toInt ∈ [8, 16, 32, 64] ∧
     ∀ n ∈ [8, 16, 32, 64], |v.toInt - nearestLength v.toInt| ≤ |v.toInt - (n : Nat)| ∧
       (|v.toInt - nearestLength v.toInt| = |v.toInt - (n : Nat)| → n ≤ nearestLength v.toInt)) ∧
    (paramNamed name = some .displayMirror →
      Serves (.setParam tag name v) tag s .ok (fun _ => [.int 4 (if v.toInt = 0 then 0 else 1)]) [.link, .accessory] []
        fun u t =>
          t.lli.params = { u.lli.params with displayMirror := v.toInt != 0 } ∧ t.acp.units = u.acp.units ∧
          t.acp.queue = u.acp.queue ∧ t.acp.held = u.acp.held ∧
          (v.toInt = 0 → t.acp.mirrorDue = none ∧ t.acp.lastSent = false)) ∧
    (let given := fun n : Nat =>
       match v.toNat / 256 ^ (4 - n) % 256 with
       | 0 => Role.none
       | 1 => .scanner
       | 2 => .display
       | _ => .other
     paramNamed name = some .accessoryRoles →
      Serves (.setParam tag name v) tag s .ok (fun _ => (rolesOf v).map fun r => .enum r.code) [.accessory] [14] fun u t =>
        [1, 2, 3, 4].map (fun n => (t.acp.units.get n).role) = rolesOf v ∧
        (∀ n ∈ [1, 2, 3, 4], (t.acp.units.get n).role =
          if (given n = .scanner ∨ given n = .display) ∧ ∃ m ∈ [1, 2, 3, 4], m < n ∧ given m = given n then .other
          else given n) ∧
        (∀ r, (r = .scanner ∨ r = .display) → (rolesOf v).count r ≤ 1) ∧
        (∀ n ∈ [1, 2, 3, 4], (t.acp.units.get n).role = .none → ∀ f ∈ t.acp.queue, f.unit = n → f ∈ u.acp.queue ∧
          (u.acp.units.get n).role = .none) ∧
        (∀ n ∈ [1, 2, 3, 4], (u.acp.units.get n).role = .none → (t.acp.units.get n).role ≠ .none → n ∈ t.acp.later))

/-! ## The weighing channel -/

/-- R1 to R3: in FAULT a sample is discarded; elsewhere it enters the ring at its newest end and restarts the watch, and
until the count reaches the filter length nothing else follows; R24: in TEST it enters as Zc + Zo + offset, held to the
converter's range. R3, R1, R30 to R34, R26: a sample that completes the ring in RUNNING forms F, the figures, the
out-of-range conditions and the bits OVERLOAD, UNDERLOAD and CENTRE from the newest samples, the record in use, and the
zero offset and tare of the update. R30, R33: the rounding of a mass gives the nearest integer, and a value halfway between
two goes away from zero. R10: with the window open, or the reference cleared, or the value outside the band, the reference
becomes the value and the count 0; inside the band the count rises by one up to 200 and the reference stays. Due times are
those of log 4. -/
def Obligations.SamplesFillTheRingAndFormTheFigures : Prop :=
  (∀ (v : Int) (s : State),
     (s.wch.state = .fault → Does (.sample v) s [] [] fun _ => True) ∧
     (s.wch.state ≠ .fault → min 64 (s.wch.count + 1) < s.lli.params.filterLength →
       Does (.sample v) s [.clock, .weighing] [] fun t =>
         t.clock = max s.clock s.wch.sampleDue ∧ t.wch.ring = (s.substitute v :: s.wch.ring).take 64 ∧
         t.wch.count = min 64 (s.wch.count + 1) ∧ t.wch.watch = some (t.clock + 12500) ∧
         t.wch.sampleDue = t.clock + 2500 ∧ t.wch.state = s.wch.state ∧ t.wch.last = s.wch.last ∧ t.wch.zo = s.wch.zo ∧
         t.wch.zi = s.wch.zi ∧ t.wch.tare = s.wch.tare ∧ t.wch.capture = s.wch.capture) ∧
     (s.wch.state ≠ .test → s.substitute v = v) ∧
     (∀ o, s.wch.state = .test → s.wch.testOffset = some o →
       s.substitute v = max (-8388608) (min 8388607 (s.sst.image.record.zc + s.wch.zo + o)))) ∧
  (∀ (v : Int) (s : State) (r : CalRecord), s.wch.state = .running → s.wch.refill = none → s.record? = some r →
     s.lli.params.filterLength ≤ min 64 (s.wch.count + 1) →
     let newest := ((v :: s.wch.ring).take 64).take s.lli.params.filterLength
     let f := roundHalfAway newest.sum s.lli.params.filterLength
     let g := roundHalfAway ((f - r.zc - s.wch.zo) * (r.mcal * 10 : Nat)) r.sc.toNat
     let n := g - s.wch.tare.value
     let e := if n ≤ (r.max1 * 10 : Nat) then r.e1 else r.e2
     Does (.sample v) s
       ([.clock, .weighing] ++ (if s.wch.capture.isSome then [.sale, .accessory] ++ s.printParts else []))
       [2, 3, 4, 7, 12, 13, 14] fun t =>
         t.clock = max s.clock s.wch.sampleDue ∧ t.wch.ring = (v :: s.wch.ring).take 64 ∧
         t.wch.last = some ⟨f, decide ((8388607 : Int) ∈ newest), decide ((-8388608 : Int) ∈ newest),
           some ⟨g, s.wch.tare, n, (10 * e : Nat) * roundHalfAway n (10 * e), e⟩⟩ ∧
         t.wch.ind.motion = (!t.wch.ind.stable) ∧
         t.wch.ind.centre = (t.wch.ind.stable && decide (g.natAbs * 4 ≤ 10 * r.e1)) ∧
         t.wch.ind.overload = decide ((8388607 : Int) ∈ newest ∨ ((r.max + 9 * r.e2) * 10 : Nat) < g) ∧
         t.wch.ind.underload = decide ((-8388608 : Int) ∈ newest ∨ g < -((20 * r.e1 * 10 : Nat) : Int))) ∧
  (∀ (x : Int) (d : Nat), 0 < d →
     (2 * (x - d * roundHalfAway x d)).natAbs ≤ d ∧
     ((2 * (x - d * roundHalfAway x d)).natAbs = d → x.natAbs < (d * roundHalfAway x d).natAbs)) ∧
  (∀ (w : Wch) (value : Int) (band : Nat),
     ((w.window ≠ .closed ∨ w.stabRef = none ∨ ∃ ref, w.stabRef = some ref ∧ (band : Int) < |value - ref|) →
       w.judge value band = { w with stabRef := some value, stabCount := 0 }) ∧
     (∀ ref, w.window = .closed → w.stabRef = some ref → |value - ref| ≤ band →
       w.judge value band = { w with stabCount := min 200 (w.stabCount + 1) }))

/-- R36: the price of a certified mass in fine units is its grams times the unit price over the divisor of the basis,
rounded half up; a unit price of 0 prices at 0; it is the amount of the weighed line of a capture result, with the unit
price and basis recorded there. -/
def Obligations.PriceIsMassTimesUnitPriceRoundedHalfUp : Prop :=
  (∀ (i : Int) (u : Nat) (b : Basis) (d : Nat), 0 ≤ i → ((b = .perKg ∧ d = 1000) ∨ (b = .per100g ∧ d = 100)) →
    2 * d * price i u b ≤ 2 * ((i / 10).toNat * u) + d ∧ 2 * ((i / 10).toNat * u) + d < 2 * d * (price i u b + 1)) ∧
  (∀ (i : Int) (b : Basis), price i 0 b = 0) ∧
  (∀ (c : Capture) (g : Figures) (e : ItemEntry), c.item = some e → e.refer = false →
    price g.certified e.unitPrice e.basis ≤ 99999999 →
    (weighedLine c g).amount = price g.certified e.unitPrice e.basis ∧ (weighedLine c g).state = .posted ∧
    (weighedLine c g).unitPrice = some e.unitPrice ∧ (weighedLine c g).basis = some e.basis)

/-- R5, R46: the first update after a restart ends the refill: in FAULT with cause STORE or RECORD, but not in a refill
that ends in CAL; else in TEST, in CAL, in RUNNING where Zi is set, or in ZERO_PENDING. R10: it is stable as `StableAt`
says. R11: a stable update in ZERO_PENDING within the counts of Max / 10 grams of Zc sets Zo and Zi to F - Zc and enters
RUNNING, another stable one sets the zero-out bit. R17: a WEIGHED tare clears at a stable update in RUNNING within a
quarter interval of zero while no capture waits; that it does so in TEST too is the model's choice (log 20). R23: the
interlock clears at a certified mass below Min or at UNDERLOAD. R48, R49: a step waits for a stable update without an
out-of-range sample, adds each later sample, starts again in motion, under an open window or at an extreme sample, and with
the 256th sample makes its candidate from the rounded average, or reports SPAN_LOW. The parameters lie in their ranges
(R197). -/
def Obligations.UpdatesEndRefillsZeroAndCalibrate : Prop :=
  ∀ (v : Int) (s : State), ParamsKept s → s.wch.state ≠ .fault → s.lli.params.filterLength ≤ min 64 (s.wch.count + 1) →
    let f := s.formed v
    let captureParts := if s.wch.capture.isSome then [.sale, .accessory] ++ s.printParts else []
    let stops := fun why : FaultCause =>
      Does (.sample v) s ([.clock, .weighing] ++ s.slotParts ++ s.holdParts) [2, 3, 4, 14] fun t =>
        t.wch.state = .fault ∧ t.wch.faultCause = some why ∧ t.wch.tare = .none ∧ t.wch.cal = none ∧
        t.wch.capture = none ∧ t.wch.zo = s.wch.zo ∧ t.wch.zi = s.wch.zi ∧ t.wch.interlock = s.wch.interlock
    (∀ cause, s.wch.refill = some cause →
      (cause ≠ .calEnter → s.sst.state ≠ .intact → stops .store) ∧
      (cause ≠ .calEnter → s.sst.state = .intact → s.sst.image.record.valid = false → stops .record) ∧
      (cause = .calEnter ∨ (s.sst.state = .intact ∧ s.sst.image.record.valid = true) →
        Does (.sample v) s ([.clock, .weighing] ++ captureParts) [2, 3, 4, 7, 12, 13, 14] fun t =>
          t.wch.refill = none ∧ (cause = .testOn → t.wch.state = .test) ∧ (cause = .calEnter → t.wch.state = .cal) ∧
          (cause ≠ .testOn → cause ≠ .calEnter → s.wch.zi ≠ none →
            t.wch.state = .running ∧ t.wch.zeroOut = false ∧ t.wch.trackDue = some (t.clock + 1000000) ∧
            t.wch.zo = s.wch.zo ∧ t.wch.zi = s.wch.zi))) ∧
    (s.wch.refill = none →
      Does (.sample v) s ([.clock, .weighing] ++ captureParts) [2, 3, 4, 7, 12, 13, 14] fun t =>
        (t.wch.ind.stable = true ↔ StableAt v s) ∧ t.wch.ind.motion = !t.wch.ind.stable) ∧
    (∀ r, s.record? = some r →
      ((s.wch.refill = none ∧ s.wch.state = .zeroPending) ∨
        (∃ cause, s.wch.refill = some cause ∧ cause ≠ .testOn ∧ cause ≠ .calEnter ∧ s.sst.state = .intact ∧
          s.wch.zi = none)) →
      Does (.sample v) s ([.clock, .weighing] ++ captureParts) [2, 3, 4, 7, 12, 13, 14] fun t =>
        (StableAt v s → (f - r.zc).natAbs ≤ (r.counts r.max 10).natAbs →
          t.wch.state = .running ∧ t.wch.zo = f - r.zc ∧ t.wch.zi = some (f - r.zc) ∧ t.wch.zeroOut = false ∧
          t.wch.trackDue = some (t.clock + 1000000)) ∧
        (¬(StableAt v s ∧ (f - r.zc).natAbs ≤ (r.counts r.max 10).natAbs) →
          t.wch.state = .zeroPending ∧ t.wch.zo = s.wch.zo ∧ t.wch.zi = s.wch.zi) ∧
        (StableAt v s → (r.counts r.max 10).natAbs < (f - r.zc).natAbs → t.wch.zeroOut = true) ∧
        (¬StableAt v s → t.wch.zeroOut = s.wch.zeroOut)) ∧
    (∀ r tare, s.record? = some r → s.wch.refill = none → s.wch.state ≠ .zeroPending → s.wch.tare = .weighed tare →
      s.wch.capture = none →
      let clears := (s.wch.state = .running ∨ s.wch.state = .test) ∧ StableAt v s ∧
        (r.gross s.wch.zo f).natAbs * 4 ≤ 10 * r.e1
      Does (.sample v) s [.clock, .weighing] [2, 4] fun t =>
        (clears → t.wch.tare = .none) ∧ (¬clears → t.wch.tare = .weighed tare)) ∧
    (s.wch.refill = none →
      let light := (-8388608 : Int) ∈ s.newest v ∨ ∃ r, s.record? = some r ∧
        (r.gross s.wch.zo f < -((20 * r.e1 * 10 : Nat) : Int) ∨
          (r.figures s.wch.zo s.wch.tare f).certified < (20 * r.e1 * 10 : Nat))
      Does (.sample v) s ([.clock, .weighing] ++ captureParts) [2, 3, 4, 7, 12, 13, 14] fun t =>
        (light → t.wch.interlock = false) ∧ (¬light → s.wch.capture = none → t.wch.interlock = s.wch.interlock)) ∧
    (∀ c y, s.wch.state = .cal → s.wch.refill = none → s.wch.capture = none → s.wch.cal = some c → c.run = some y →
      let extreme := fun x : Int => x = 8388607 ∨ x = -8388608
      let average := roundHalfAway (y.sum + v) 256
      Does (.sample v) s [.clock, .weighing] [2, 4] fun t =>
        let goesOn := fun y' : CalRun => t.wch.cal = some { c with run := some y' }
        (y.averaging = false → StableAt v s → (∀ x ∈ s.newest v, ¬extreme x) →
          goesOn { y with averaging := true, sum := 0, count := 0 }) ∧
        (y.averaging = false → (¬StableAt v s ∨ ∃ x ∈ s.newest v, extreme x) → goesOn y) ∧
        (y.averaging = true → (¬StableAt v s ∨ extreme v) → goesOn { y with averaging := false, sum := 0, count := 0 }) ∧
        (y.averaging = true → StableAt v s → ¬extreme v → y.count < 255 →
          goesOn { y with sum := y.sum + v, count := y.count + 1 }) ∧
        (y.averaging = true → StableAt v s → ¬extreme v → y.count = 255 →
          (y.step = .zero →
            t.wch.cal = some { c with run := none, zero := some average } ∧ Notified t (.cal .zero .ok)) ∧
          (∀ m z, y.step = .span m → c.zero = some z →
            ((10 * m : Nat) ≤ average - z →
              t.wch.cal = some { c with run := none, span := some (average - z, m) } ∧ Notified t (.cal .span .ok)) ∧
            (average - z < (10 * m : Nat) →
              t.wch.cal = some { c with run := none, span := none } ∧ Notified t (.cal .span .spanLow)))))

/-- R2, R7: the watch's expiry puts the channel in FAULT with cause CONVERTER: a waiting capture ends with FAULT, the tare,
the tracking timer and a calibration are dropped, WEIGHT is raised; Zo, Zi and the interlock are kept, and the window too.
Due times are those of log 4. -/
def Obligations.ConverterLossEntersFault : Prop :=
  ∀ (s : State) (due : Nat), s.wch.watch = some due → s.wch.state ≠ .fault →
    Does .converterWatch s ([.clock, .weighing] ++ s.slotParts ++ s.holdParts) [2, 3, 4, 14] fun t =>
      t.clock = max s.clock due ∧ t.wch.state = .fault ∧ t.wch.faultCause = some .converter ∧ t.wch.tare = .none ∧
      t.wch.capture = none ∧ t.wch.trackDue = none ∧ t.wch.watch = none ∧ t.wch.cal = none ∧ t.wch.zo = s.wch.zo ∧
      t.wch.zi = s.wch.zi ∧ t.wch.interlock = s.wch.interlock ∧ (s.wch.state ≠ .cal → t.wch.window = s.wch.window) ∧
      Notified t t.wch.detail ∧ (∀ c, s.wch.capture = some c → Notified t (.capture c.source .fault none)) ∧
      (∀ x y, s.wch.cal = some x → x.run = some y → Notified t (.cal y.step.name .aborted))

/-- R13: an expiry in RUNNING runs the timer on; when the channel is stable, undisturbed, without tare or capture, and the
gross is within half an interval, Zo moves by the counts of the gross, at most by those of half an interval, and is held to
the zero band around Zi; the stability reference moves by what that changes of the gross (R10); the zero-limit bit is set
where the step would leave the band, cleared where it lands inside without meeting an edge, and raises WEIGHT when it
changes; else, or without figures, initial zero or record, nothing more happens. The stable flag is that of log 21, and the
window, the tare and the capture are those of the expiry itself (log 52): the model's choices. R18: at its closing time the
disturbance window closes; WEIGHT is raised for the disturbed bit. Due times are those of log 4. -/
def Obligations.TrackingAndWindowTimersAct : Prop :=
  (∀ (s : State) (due : Nat), s.wch.trackDue = some due → s.wch.state = .running →
     (∀ up g zi r, s.wch.last = some up → up.figures = some g → s.wch.zi = some zi → s.record? = some r →
       s.wch.stable = true → s.wch.window = .closed → s.wch.tare = .none → s.wch.capture = none →
       g.gross.natAbs ≤ 5 * r.e1 →
       Does .zeroTrackingExpiry s [.clock, .weighing] [2] fun t =>
         let l := r.counts r.e1 2
         let band : Int := (r.counts r.max 50).natAbs
         t.clock = max s.clock due ∧ t.wch.trackDue = some (due + 1000000) ∧
         let moved := s.wch.zo + max (-l) (min l (r.counts g.gross 10))
         t.wch.zo = max (zi - band) (min (zi + band) moved) ∧
         t.wch.stabRef = s.wch.stabRef.map (fun x => x + (r.gross t.wch.zo up.f - r.gross s.wch.zo up.f)) ∧
         t.wch.zeroLimit = (if moved < zi - band ∨ zi + band < moved then true
                            else if moved = zi - band ∨ moved = zi + band then s.wch.zeroLimit else false) ∧
         (t.wch.zeroLimit ≠ s.wch.zeroLimit → Notified t t.wch.detail) ∧
         t.wch.zi = s.wch.zi ∧ t.wch.tare = s.wch.tare ∧ t.wch.stabCount = s.wch.stabCount) ∧
     ((s.wch.stable = false ∨ s.wch.window ≠ .closed ∨ s.wch.tare ≠ .none ∨ s.wch.capture ≠ none ∨ s.wch.zi = none ∨
         s.record? = none ∨ (∀ up, s.wch.last = some up → up.figures = none) ∨
         (∃ up g r, s.wch.last = some up ∧ up.figures = some g ∧ s.record? = some r ∧ 5 * r.e1 < g.gross.natAbs)) →
       Does .zeroTrackingExpiry s [.clock, .weighing] [] fun t =>
         t.clock = max s.clock due ∧ t.wch = { s.wch with trackDue := some (due + 1000000) })) ∧
  (∀ (s : State) (due : Nat), s.wch.window = .opened (some due) →
     Does .disturbanceWindowClose s [.clock, .weighing] [2] fun t =>
       t.clock = max s.clock due ∧ t.wch = { s.wch with window := .closed } ∧ Notified t t.wch.detail)

/-- R22, R16, R20, R167: the capture timer's expiry ends the capture with TIMEOUT, an ITEM tare lapses, and a held read then
starts its own capture if it may; a held read is never left. Due times are those of log 4. -/
def Obligations.CaptureTimeoutEndsTheCapture : Prop :=
  ∀ (s : State) (c : Capture), s.wch.capture = some c →
    Does .captureTimerExpiry s [.clock, .weighing, .accessory] [2, 3, 14] fun t =>
      t.clock = max s.clock c.due ∧ Notified t (.capture c.source .timeout none) ∧ t.acp.held = none ∧
      (s.acp.held = none → t.wch = { s.wch with
        capture := none, lateCancel := true
        tare := match s.wch.tare with
                | .item _ => .none
                | k => k }) ∧
      (∀ h, s.acp.held = some h → 1 ≤ h.plu → h.plu ≤ 999999 → s.wch.state = .running → s.openSale?.isSome = true →
        (∀ e, s.tbs.findItem h.plu = some e → e.basis ≠ .each) →
        ∃ k, t.wch.capture = some k ∧ k.plu = h.plu ∧ k.source = .scan)

/-- R8, R24, R25, R6: WEIGH_RESTART empties the ring and the zero, tare and interlock; WEIGH_TEST on and off restart into
and out of TEST and keep the zero; a capture that waits ends with FAULT. Each is refused STATE in the states that do not
take it. The model's choice, not the spec's: an offset of the four-byte field outside the range of R24 is taken as well
(log 30). Requests are taken at the router of log 6. -/
def Obligations.RestartsEmptyTheRing : Prop :=
  ∀ (tag : Byte) (s : State),
    (s.wch.state ≠ .test → s.wch.state ≠ .cal →
      Serves (.weighRestart tag) tag s .ok (fun _ => []) (.weighing :: s.slotParts) [2, 3, 14] fun u t =>
        t.wch.state = .starting ∧ t.wch.faultCause = none ∧ t.wch.ring = [] ∧ t.wch.count = 0 ∧
        t.wch.watch = some (u.clock + 12500) ∧ t.wch.zo = 0 ∧ t.wch.zi = none ∧ t.wch.tare = .none ∧
        t.wch.interlock = false ∧ t.wch.stabRef = none ∧ t.wch.stabCount = 0 ∧ t.wch.capture = none ∧
        t.wch.window = u.wch.window ∧ (∀ c, u.wch.capture = some c → Notified t (.capture c.source .fault none))) ∧
    ((s.wch.state = .test ∨ s.wch.state = .cal) → Refuses (.weighRestart tag) tag s .state) ∧
    (∀ offset, s.sru.openSlot = none → s.sru.closing = none → (s.wch.state = .running ∨ s.wch.state = .test) →
      Serves (.weighTestOn tag offset) tag s .ok (fun _ => []) (.weighing :: s.slotParts) [2, 3, 14] fun u t =>
        t.wch.state = .test ∧ t.wch.testOffset = some offset ∧ t.wch.ring = [] ∧ t.wch.count = 0 ∧ t.wch.zo = u.wch.zo ∧
        t.wch.zi = u.wch.zi ∧ (u.wch.capture = none → t.wch.tare = u.wch.tare) ∧ t.wch.interlock = false) ∧
    (∀ offset, (s.sru.openSlot ≠ none ∨ s.sru.closing ≠ none ∨ (s.wch.state ≠ .running ∧ s.wch.state ≠ .test)) →
      Refuses (.weighTestOn tag offset) tag s .state) ∧
    (s.wch.state = .test →
      Serves (.weighTestOff tag) tag s .ok (fun _ => []) (.weighing :: s.slotParts) [2, 3, 14] fun u t =>
        t.wch.state = .starting ∧ t.wch.testOffset = none ∧ t.wch.ring = [] ∧ t.wch.count = 0 ∧ t.wch.zo = u.wch.zo ∧
        t.wch.zi = u.wch.zi ∧ (u.wch.capture = none → t.wch.tare = u.wch.tare) ∧ t.wch.interlock = false) ∧
    (s.wch.state ≠ .test → Refuses (.weighTestOff tag) tag s .state)

/-- R12: WEIGH_ZERO makes F - Zc the zero offset, moves the stability reference by what that changes of the gross, and
clears the zero-limit bit; a candidate outside the zero band is refused RANGE. R14: WEIGH_TARE takes the gross load,
rounded to e1, as a WEIGHED tare; a gross at or below zero, or above Max1, is refused RANGE. Requests are taken at the
router of log 6. -/
def Obligations.WeighZeroAndTareTakeTheGrossLoad : Prop :=
  (∀ (tag : Byte) (s : State) (up : Update) (zi : Int) (r : CalRecord), s.wch.state = .running → s.wch.capture = none →
     s.wch.tare = .none → s.wch.window = .closed → s.wch.stable = true → s.wch.last = some up → s.wch.zi = some zi →
     s.record? = some r → up.oorHigh = false → up.oorLow = false →
     ((up.f - r.zc - zi).natAbs ≤ (r.counts r.max 50).natAbs →
       Serves (.weighZero tag) tag s .ok (fun _ => []) [.weighing] [2] fun u t =>
         t.wch = { u.wch with
           zo := up.f - r.zc
           zeroLimit := false
           stabRef := u.wch.stabRef.map fun x => x + (r.gross (up.f - r.zc) up.f - r.gross u.wch.zo up.f) }) ∧
     ((r.counts r.max 50).natAbs < (up.f - r.zc - zi).natAbs → Refuses (.weighZero tag) tag s .range)) ∧
  (∀ (tag : Byte) (s : State) (up : Update) (g : Figures) (r : CalRecord), s.wch.state = .running →
     s.wch.capture = none → s.wch.window = .closed → s.wch.stable = true → s.wch.ind.overload = false →
     s.wch.ind.underload = false → s.wch.last = some up → up.figures = some g → s.record? = some r →
     (0 < g.gross → g.gross ≤ (r.max1 * 10 : Nat) → 0 < roundHalfAway g.gross (10 * r.e1) →
       Serves (.weighTare tag) tag s .ok (fun _ => [.int 2 (r.e1 * (roundHalfAway g.gross (10 * r.e1)).toNat : Nat)])
         [.weighing] [2] fun u t =>
           t.wch = { u.wch with tare := .weighed (10 * r.e1 * (roundHalfAway g.gross (10 * r.e1)).toNat) } ∧
           Notified t t.wch.detail) ∧
     ((g.gross ≤ 0 ∨ (r.max1 * 10 : Nat) < g.gross) → Refuses (.weighTare tag) tag s .range))

/-- R15: WEIGH_PRESET_TARE is refused STATE outside RUNNING and BUSY while a capture waits; the value is rounded to e1, 0 is
refused RANGE, above Max1 it is Max1, and the record becomes PRESET with WEIGHT raised, open window or not. R15:
WEIGH_CLEAR_TARE makes the record NONE in any state but CAL while no capture waits. Requests are taken at the router of log
6. -/
def Obligations.TareRequestsSetAndClearTheRecord : Prop :=
  (∀ (tag : Byte) (grams : Nat) (s : State),
     (s.wch.state ≠ .running → Refuses (.weighPresetTare tag grams) tag s .state) ∧
     (s.wch.state = .running → s.wch.capture ≠ none → Refuses (.weighPresetTare tag grams) tag s .busy) ∧
     (∀ r, s.wch.state = .running → s.wch.capture = none → s.record? = some r →
       let v := r.e1 * (roundHalfAway grams r.e1).toNat
       (v = 0 → Refuses (.weighPresetTare tag grams) tag s .range) ∧
       (v ≠ 0 →
         Serves (.weighPresetTare tag grams) tag s .ok (fun _ => [.int 2 (min v r.max1 : Nat)]) [.weighing] [2] fun u t =>
           t.wch = { u.wch with tare := .preset (min v r.max1 * 10) } ∧ Notified t t.wch.detail))) ∧
  (∀ (tag : Byte) (s : State),
     (s.wch.state ≠ .cal → s.wch.capture = none →
       Serves (.weighClearTare tag) tag s .ok (fun _ => []) [.weighing] [2] fun u t =>
         t.wch = { u.wch with tare := .none } ∧ (u.wch.tare ≠ .none → Notified t t.wch.detail)) ∧
     (s.wch.state = .cal → Refuses (.weighClearTare tag) tag s .state) ∧
     (s.wch.state ≠ .cal → s.wch.capture ≠ none → Refuses (.weighClearTare tag) tag s .busy))

/-- R19, R22: WEIGH_CAPTURE in RUNNING with a sale in OPEN takes the slot with the item found, its table's generation and
the timer, and is ACCEPTED; the conditions refuse in their order. R16: where the tare is NONE the item's preset tare,
rounded to e1 and held to Max1, becomes the ITEM tare, none where it rounds to 0. WEIGH_CANCEL ends a waiting capture with
CANCELLED, and is refused TOO_LATE or STATE without one. Requests are taken at the router of log 6. -/
def Obligations.CapturesAreTakenAndCancelled : Prop :=
  (∀ (tag : Byte) (plu : Nat) (s : State),
    ((plu < 1 ∨ 999999 < plu) → Refuses (.weighCapture tag plu) tag s .range) ∧
    (1 ≤ plu → plu ≤ 999999 → s.wch.capture ≠ none → Refuses (.weighCapture tag plu) tag s .busy) ∧
    (1 ≤ plu → plu ≤ 999999 → s.wch.capture = none → (s.wch.state ≠ .running ∨ s.openSale? = none) →
      Refuses (.weighCapture tag plu) tag s .state) ∧
    (1 ≤ plu → plu ≤ 999999 → s.wch.capture = none → s.wch.state = .running → s.openSale? ≠ none →
      (∀ e, s.tbs.findItem plu = some e → e.basis = .each → Refuses (.weighCapture tag plu) tag s .notWeighed) ∧
      ((∀ e, s.tbs.findItem plu = some e → e.basis ≠ .each) →
        Serves (.weighCapture tag plu) tag s .accepted (fun _ => []) [.weighing] [2] fun u t =>
          t.wch.capture = some ⟨plu, .request tag, u.tbs.findItem plu, u.tbs.item.generation,
            u.clock + u.lli.params.captureTimeout * 1000⟩ ∧
          t.wch.lateCancel = false ∧ t.wch.state = u.wch.state ∧ t.wch.zo = u.wch.zo ∧
          (u.wch.tare ≠ .none → t.wch.tare = u.wch.tare) ∧
          (∀ r, u.wch.tare = .none → u.record? = some r →
            t.wch.tare = (match (u.tbs.findItem plu).bind ItemEntry.presetTare with
                          | none => .none
                          | some p =>
                            let grams := r.e1 * (roundHalfAway p r.e1).toNat
                            if grams = 0 then .none else .item (min grams r.max1 * 10)) ∧
            (t.wch.tare ≠ .none → Notified t t.wch.detail))))) ∧
  (∀ (tag : Byte) (s : State),
    (∀ c, s.wch.capture = some c →
      Serves (.weighCancel tag) tag s .ok (fun _ => []) [.weighing, .accessory] [2, 3, 14] fun u t =>
        Notified t (.capture c.source .cancelled none) ∧ t.acp.held = none ∧
        (u.acp.held = none → t.wch.capture = none ∧ t.wch.lateCancel = true)) ∧
    (s.wch.capture = none → Refuses (.weighCancel tag) tag s (if s.wch.lateCancel then .tooLate else .state)))

/-- R21, R35, R37, R70, R73, R65: a waiting capture completes at an update in RUNNING that is stable and undisturbed, clear
of overload, underload and the interlock, with the certified mass from Min to Max: SRU gets one WEIGHED line of that mass,
the interlock is set, the slot empties, and CAPTURE reports the line. So it is at the SAMPLE that forms the update: POSTED
at its price; REFERRED at amount 0 for an unknown item, one marked to refer, or a price above 99,999,999, the referral
opened and reported; and LIMIT, the sale as it was, where the line list, the referral list or the item total has no room.
Due times are those of log 4. -/
def Obligations.CaptureCompletesIntoOneWeighedLine : Prop :=
  (∀ (up : Update) (s : State) (c : Capture) (g : Figures) (r : CalRecord) (o : Sale) (e : ItemEntry),
    s.wch.capture = some c → up.figures = some g → s.record? = some r → s.openSale? = some o → c.item = some e →
    s.wch.state = .running → s.wch.ind.stable = true → s.wch.window = .closed → s.wch.ind.overload = false →
    s.wch.ind.underload = false → s.wch.interlock = false → ((20 * r.e1 * 10 : Nat) : Int) ≤ g.certified →
    g.certified ≤ (r.max * 10 : Nat) → e.refer = false → price g.certified e.unitPrice e.basis ≤ 99999999 →
    o.lines.length < 200 → 0 ≤ o.itemTotal → o.itemTotal + price g.certified e.unitPrice e.basis ≤ 999999999 →
    s.acp.held = none →
    let t := completeCapture up s
    t.sru.openSlot.map Sale.unprinted = some ({ o with lines := o.lines ++
      [{ number := o.lines.length + 1, kind := .weighed, state := .posted, plu := some c.plu, text := e.text,
         quantity := none, mass := some ⟨g.gross, g.tare, g.certified, g.interval, c.generation⟩,
         unitPrice := some e.unitPrice, basis := some e.basis, amount := price g.certified e.unitPrice e.basis,
         voided := none, card := none, print := .notQueued }] } : Sale).unprinted ∧
    t.wch.capture = none ∧ t.wch.interlock = true ∧ t.wch.lateCancel = true ∧
    .capture c.source .ok (some (o.lines.length + 1)) ∈ t.lli.notices) ∧
  (∀ (v : Int) (s : State) (c : Capture) (g : Figures) (r : CalRecord) (o : Sale), CapturesAt v r c o g s →
    let number := o.lines.length + 1
    let line : LineState → Int → Line := fun st amount =>
      { number := number, kind := .weighed, state := st, plu := some c.plu
        text := match c.item with
                | some e => e.text
                | none => []
        quantity := none, mass := some ⟨g.gross, g.tare, g.certified, g.interval, c.generation⟩
        unitPrice := c.item.map ItemEntry.unitPrice, basis := c.item.map ItemEntry.basis, amount := amount
        voided := none, card := none, print := .notQueued }
    let reason : Option ReferralReason :=
      match c.item with
      | none => some .missing
      | some e =>
        if e.refer then some .refer
        else if 99999999 < price g.certified e.unitPrice e.basis then some .priceLimit else none
    (∀ e, c.item = some e → reason = none → o.lines.length < 200 →
      0 ≤ o.itemTotal + price g.certified e.unitPrice e.basis →
      o.itemTotal + price g.certified e.unitPrice e.basis ≤ 999999999 →
      Does (.sample v) s ([.clock, .weighing, .sale] ++ s.printParts) ([2, 3, 4] ++ s.printKinds) fun t =>
        t.clock = max s.clock s.wch.sampleDue ∧ CaptureDone c .ok (some number) s t ∧
        t.sru.unprinted = ({ s.sru with openSlot := some { o with
          lines := o.lines ++ [line .posted (price g.certified e.unitPrice e.basis)] } } : Sru).unprinted) ∧
    (∀ x, reason = some x → o.lines.length < 200 → o.referrals.length < 4 →
      Does (.sample v) s ([.clock, .weighing, .sale] ++ s.printParts) ([2, 3, 4, 7] ++ s.printKinds) fun t =>
        t.clock = max s.clock s.wch.sampleDue ∧ CaptureDone c .referred (some number) s t ∧
        t.sru.unprinted = ({ s.sru with openSlot := some { o with
          lines := o.lines ++ [line .referred 0]
          referrals := o.referrals ++ [⟨number, x, t.clock + s.lli.params.referralTimeout * 1000000⟩] } } :
          Sru).unprinted ∧
        Notified t (.referral (o.outstanding ++ [number]))) ∧
    ((200 ≤ o.lines.length ∨ (reason ≠ none ∧ 4 ≤ o.referrals.length) ∨
        (∃ e, c.item = some e ∧ reason = none ∧ (o.itemTotal + price g.certified e.unitPrice e.basis < 0 ∨
          999999999 < o.itemTotal + price g.certified e.unitPrice e.basis))) →
      Does (.sample v) s [.clock, .weighing] [2, 3, 4] fun t =>
        t.clock = max s.clock s.wch.sampleDue ∧ CaptureDone c .limit none s t))

/-! ## Calibration and the sealed store -/

/-- R44: a change of the switch outside CAL is kept and changes nothing else, and so is its closing; its opening in CAL
leaves CAL, or waits for the commit write in flight. -/
def Obligations.OpeningTheCalibrationSwitchLeavesCal : Prop :=
  ∀ (s : State),
    (s.wch.calSwitchClosed = false →
      Does (.calibrationSwitchChange true) s [.weighing] [] fun t => t.wch = { s.wch with calSwitchClosed := true }) ∧
    (s.wch.calSwitchClosed = true → s.wch.state ≠ .cal →
      Does (.calibrationSwitchChange false) s [.weighing] [] fun t => t.wch = { s.wch with calSwitchClosed := false }) ∧
    (s.wch.calSwitchClosed = true → s.wch.state = .cal → s.sst.commitInFlight = false →
      Does (.calibrationSwitchChange false) s ([.weighing] ++ s.slotParts ++ s.holdParts) [2, 3, 4, 14] fun t =>
        t.wch.calSwitchClosed = false ∧ t.wch.state = .starting ∧ t.wch.cal = none ∧ t.wch.zo = 0 ∧ t.wch.zi = none ∧
        t.wch.tare = .none ∧ t.wch.ring = [] ∧ Notified t (.cal .leave .ok)) ∧
    (∀ c, s.wch.calSwitchClosed = true → s.wch.state = .cal → s.sst.commitInFlight = true → s.wch.cal = some c →
      Does (.calibrationSwitchChange false) s [.weighing] [] fun t =>
        t.wch = { s.wch with calSwitchClosed := false, cal := some { c with pendingLeave := true } })

/-- R46, R6, R45, R109: CAL_ENTER with the switch closed restarts the channel into CAL with an empty context, keeps the zero
and the tare, and withdraws a drawer that waits for a grant; it is refused SEALED with the switch open. R47, R51: CAL_LEAVE
drops the context, ends a step in progress with ABORTED and restarts the channel for a new initial zero; it is refused STATE
outside CAL and BUSY while a commit write is in flight. Requests are taken at the router of log 6. -/
def Obligations.CalEnterAndLeaveRestartTheChannel : Prop :=
  (∀ (tag : Byte) (s : State),
     (s.wch.calSwitchClosed = true → s.wch.state ≠ .cal → s.sst.state ≠ .fault →
       ¬(s.wch.state = .fault ∧ s.wch.faultCause = some .converter) → s.wch.state ≠ .test → s.sru.openSlot = none →
       s.sru.closing = none → s.wch.capture = none → s.sst.inFlight = none →
       Serves (.calEnter tag) tag s .ok (fun _ => []) (.weighing :: s.withdrawParts) [2] fun u t =>
         t.wch.state = .cal ∧ t.wch.cal = some ⟨none, none, none, none, false⟩ ∧ t.wch.zo = u.wch.zo ∧
         t.wch.zi = u.wch.zi ∧ t.wch.tare = u.wch.tare ∧ t.wch.ring = [] ∧ t.wch.interlock = false ∧
         (u.tlc.state = .waitGrant → t.tlc.state = .closed ∧ t.pbu.solenoidReq = none)) ∧
     (s.wch.calSwitchClosed = false → Refuses (.calEnter tag) tag s .sealed)) ∧
  (∀ (tag : Byte) (s : State),
     (s.wch.state = .cal → s.sst.commitInFlight = false →
       Serves (.calLeave tag) tag s .ok (fun _ => []) ([.weighing] ++ s.slotParts ++ s.holdParts) [2, 3, 4, 14] fun u t =>
         t.wch.state = .starting ∧ t.wch.cal = none ∧ t.wch.zo = 0 ∧ t.wch.zi = none ∧ t.wch.tare = .none ∧
         t.wch.ring = [] ∧ t.wch.interlock = false ∧
         (∀ x y, u.wch.cal = some x → x.run = some y → Notified t (.cal y.step.name .aborted))) ∧
     (s.wch.state ≠ .cal → Refuses (.calLeave tag) tag s .state) ∧
     (s.wch.state = .cal → s.sst.commitInFlight = true → Refuses (.calLeave tag) tag s .busy))

/-- R48 to R51: with the switch closed, in CAL, and no step or commit in progress, CAL_ZERO and CAL_SPAN begin their step
and drop the candidates it replaces, CAL_RANGES keeps valid ranges and refuses others RANGE; the step timer ends a step
with TIMEOUT. Read from the spec by inference (log 38): with no candidate ranges a record in the store that meets R5 limits
the mass of CAL_SPAN by its Max, in a DAMAGED store too. Due times are those of log 4, and requests are taken at the router
of log 6. -/
def Obligations.CalibrationStepsBeginAndTimeOut : Prop :=
  (∀ (tag : Byte) (s : State) (c : CalContext), s.wch.calSwitchClosed = true → s.wch.state = .cal →
    s.wch.cal = some c → c.run = none → s.sst.commitInFlight = false →
    (Serves (.calZero tag) tag s .accepted (fun _ => []) [.weighing] [] fun u t =>
      t.wch = { u.wch with cal := some { c with
        zero := none, span := none, run := some ⟨.zero, false, 0, 0, u.clock + 30000000⟩ } }) ∧
    (∀ mcal, c.zero ≠ none → 1 ≤ mcal → mcal ≤ 30000 →
      (∀ g, c.ranges = some g → g.max ≤ 10 * mcal ∧ mcal ≤ g.max) →
      (c.ranges = none → s.sst.image.record.valid = true →
        s.sst.image.record.max ≤ 10 * mcal ∧ mcal ≤ s.sst.image.record.max) →
      Serves (.calSpan tag mcal) tag s .accepted (fun _ => []) [.weighing] [] fun u t =>
        t.wch = { u.wch with cal := some { c with
          span := none, run := some ⟨.span mcal, false, 0, 0, u.clock + 30000000⟩ } }) ∧
    (∀ mcal, c.zero = none → Refuses (.calSpan tag mcal) tag s .state) ∧
    (∀ mcal, c.zero ≠ none → (mcal < 1 ∨ 30000 < mcal ∨ (∃ g, c.ranges = some g ∧ (10 * mcal < g.max ∨ g.max < mcal)) ∨
        (c.ranges = none ∧ s.sst.image.record.valid = true ∧
          (10 * mcal < s.sst.image.record.max ∨ s.sst.image.record.max < mcal))) →
      Refuses (.calSpan tag mcal) tag s .range) ∧
    (∀ max1 e1 max e2, rangesValid max1 e1 max e2 = true →
      Serves (.calRanges tag max1 e1 max e2) tag s .accepted (fun _ => []) [.weighing] [4] fun u t =>
        t.wch = { u.wch with cal := some { c with ranges := some ⟨max1, e1, max, e2⟩ } } ∧ Notified t (.cal .ranges .ok)) ∧
    (∀ max1 e1 max e2, rangesValid max1 e1 max e2 = false → Refuses (.calRanges tag max1 e1 max e2) tag s .range)) ∧
  (∀ (s : State) (c : CalContext) (y : CalRun), s.wch.cal = some c → c.run = some y →
    Does .calStepTimeout s [.clock, .weighing] [4] fun t =>
      t.clock = max s.clock y.due ∧ t.wch = { s.wch with cal := some { c with run := none } } ∧
      Notified t (.cal y.step.name .timeout))

/-- R52: CAL_COMMIT with all three candidates, the mass within a tenth of Max to Max, no write in flight or pending and no
supply warning, starts the write of the candidates: with the counter one higher, or for a DAMAGED store of every figure, the
counter 1 and the totals 0. Requests are taken at the router of log 6. -/
def Obligations.CalCommitStartsTheWrite : Prop :=
  ∀ (tag : Byte) (s : State) (c : CalContext) (z d : Int) (m : Nat) (g : Ranges), s.wch.calSwitchClosed = true →
    s.wch.state = .cal → s.wch.cal = some c → c.run = none → c.zero = some z → c.span = some (d, m) →
    c.ranges = some g →
    (g.max ≤ 10 * m → m ≤ g.max → s.sst.inFlight = none → s.sst.pendingTotals = false → s.pbu.warning = false →
      Serves (.calCommit tag) tag s .accepted (fun _ => []) [.store] [] fun u t =>
        let data : WriteData :=
          if u.sst.state = .damaged then .whole ⟨⟨z, d, m, g.max1, g.e1, g.max, g.e2⟩, 1, 0, 0⟩
          else .calibration ⟨z, d, m, g.max1, g.e1, g.max, g.e2⟩ (min 65535 (u.sst.array.calCounter + 1))
        t.sst = { u.sst with inFlight := some ⟨data, u.clock + 50000⟩ }) ∧
    ((10 * m < g.max ∨ g.max < m) → Refuses (.calCommit tag) tag s .range) ∧
    (g.max ≤ 10 * m → m ≤ g.max → (s.sst.inFlight ≠ none ∨ s.sst.pendingTotals = true ∨ s.pbu.warning = true) →
      Refuses (.calCommit tag) tag s .busy)

/-- R55, R52: a completed write stands in the array with its integrity word; totals leave the image as it is, a commit's
record enters it with CAL COMMIT OK and its candidates dropped, and the write of a DAMAGED store makes it INTACT; a pending
totals write starts next unless the supply warning is on or CONTROLLER_RESET has been taken (R56); that it then stays
pending until the reset drops it is read from the spec by inference (log 66). A pending leave takes effect at the same
event; that CAL then reports COMMIT alone is the model's choice (log 23). R54, R55: the completion of a write leaves a
store whose check at the next reset finds it INTACT, whatever was written: its integrity word is always the CRC of its
array. -/
def Obligations.CompletedWriteStandsAndPassesItsCheck : Prop :=
  let next := fun s t : State =>
    if s.sst.pendingTotals = true ∧ s.pbu.warning = false ∧ s.lli.resetAnswer = .none then
      t.sst.inFlight = some ⟨.totals t.sst.image.saleCounter t.sst.image.grandTotal, s.clock + 50000⟩ ∧
      t.sst.pendingTotals = false
    else t.sst.inFlight = none ∧ t.sst.pendingTotals = s.sst.pendingTotals
  (∀ (s : State) (w : Write), s.sst.inFlight = some w → s.lli.awaited = none →
     (∀ n total, w.data = .totals n total →
       Does .writeComplete s [.store] [] fun t =>
         t.sst.array = { s.sst.array with saleCounter := n, grandTotal := total } ∧
         t.sst.word = integrityWord t.sst.array ∧ t.sst.image = s.sst.image ∧ t.sst.state = s.sst.state ∧
         next s t) ∧
     (∀ r n, w.data = .calibration r n →
       Does .writeComplete s ([.store, .weighing] ++ s.slotParts ++ s.holdParts) [2, 3, 4, 14] fun t =>
         t.sst.array = { s.sst.array with record := r, calCounter := n } ∧ t.sst.word = integrityWord t.sst.array ∧
         t.sst.image = { s.sst.image with record := r, calCounter := n } ∧ t.sst.state = s.sst.state ∧ next s t ∧
         (∀ x, s.wch.cal = some x → s.wch.state = .cal → x.run = none →
           Notified t (.cal .commit .ok) ∧
           (x.pendingLeave = false → t.wch.cal = some { x with zero := none, span := none, ranges := none }) ∧
           (x.pendingLeave = true → t.wch.state = .starting ∧ t.wch.cal = none))) ∧
     (∀ g, w.data = .whole g →
       Does .writeComplete s ([.store, .weighing] ++ s.slotParts ++ s.holdParts) [2, 3, 4, 14, 15] fun t =>
         t.sst.array = g ∧ t.sst.word = integrityWord g ∧ t.sst.image = g ∧ t.sst.state = .intact ∧ next s t ∧
         Notified t (.store .intact))) ∧
  (∀ (s t : State) (w : Write) (pins : Pins), s.sst.inFlight = some w → s.lli.awaited = none → s.sst.pendingTotals = false →
     exec .writeComplete s = .next t →
     Completes (.powerReset pins) t fun r => r.sst.state = .intact ∧ r.sst.image = t.sst.array)

/-- R55, R52, R7: a write that is not complete at its timer puts the store and the channel in FAULT and leaves the array,
its word and the image as they were (log 43, the model's choice); a pending write is dropped, and a commit's end is
reported WRITE_TIMEOUT. Due times are those of log 4. -/
def Obligations.WriteTimeoutFaultsTheStore : Prop :=
  ∀ (s : State) (w : Write), s.sst.inFlight = some w → s.lli.awaited = none →
    Does .writeTimeout s ([.clock, .store, .weighing] ++ s.slotParts ++ s.holdParts) [2, 3, 4, 14, 15] fun t =>
      t.clock = max s.clock w.due ∧
      t.sst = { s.sst with state := .fault, inFlight := none, pendingTotals := false } ∧
      t.wch.state = .fault ∧ t.wch.faultCause = some .store ∧ (s.wch.state ≠ .fault → t.wch.cal = none) ∧
      Notified t (.store .fault) ∧
      ((∀ n total, w.data ≠ .totals n total) → Notified t (.cal .commit .writeTimeout))

/-! ## The sale -/

/-- R66, R59: SALE_OPEN in a READY lane with the open slot empty, and the drawer CLOSED unless *close before next sale* is
off, opens an empty sale under the counter's tag, and the counter passes to a tag that no live sale holds. Requests are
taken at the router of log 6. -/
def Obligations.SaleOpenTakesTheNextFreeTag : Prop :=
  ∀ (tag : Byte) (s : State), s.lli.lane = .ready → s.sru.openSlot = none →
    (s.lli.params.closeBeforeSale = false ∨ s.tlc.state = .closed →
      Serves (.saleOpen tag) tag s .ok (fun u => [.int 2 u.sru.nextTag]) (.sale :: s.printParts) s.printKinds fun u t =>
        t.sru.openSlot.map Sale.unprinted = some
          { tag := u.sru.nextTag, state := .opened, closingKind := none, resumed := false, lines := [], referrals := [],
            cardTender := none, changeDue := 0, itemGen := u.tbs.item.generation, nextToQueue := 0, incomplete := false,
            saleNumber := none } ∧
        t.sru.closing.map Sale.unprinted = u.sru.closing.map Sale.unprinted ∧ t.sru.stack = u.sru.stack ∧
        t.sru.lateAnswer = u.sru.lateAnswer ∧
        (1 ≤ u.sru.nextTag → u.sru.nextTag ≤ 65535 → u.sru.stack.length ≤ 3 →
          1 ≤ t.sru.nextTag ∧ t.sru.nextTag ≤ 65535 ∧ t.sru.nextTag ∉ t.sru.liveTags)) ∧
    (s.lli.params.closeBeforeSale = true → s.tlc.state ≠ .closed → Refuses (.saleOpen tag) tag s .drawerOpen)

/-- R68, R39, R65, R73: ITEM_ADD of an EACH item posts a line of its price times the quantity; an item marked to refer, or
a missing PLU, makes a REFERRED line of amount 0, opens its referral and raises REFERRAL. It is refused STATE without a
sale in OPEN, RANGE for a PLU or quantity out of range, NOT_EACH for an item not EACH, and LIMIT for a line or a referral
too many, or an amount or a total out of range. Requests are taken at the router of log 6. -/
def Obligations.ItemAddPostsOrRefersALine : Prop :=
  (∀ (tag : Byte) (plu q : Nat) (s : State), s.openSale? = none → Refuses (.itemAdd tag plu q) tag s .state) ∧
  (∀ (tag : Byte) (plu q : Nat) (s : State) (o : Sale), s.openSale? = some o →
    ((plu < 1 ∨ 999999 < plu ∨ q < 1 ∨ 999 < q) → Refuses (.itemAdd tag plu q) tag s .range)) ∧
  (∀ (tag : Byte) (plu q : Nat) (s : State) (o : Sale), s.openSale? = some o → 1 ≤ plu → plu ≤ 999999 → 1 ≤ q → q ≤ 999 →
    (∀ e, s.tbs.findItem plu = some e → e.basis = .each → e.refer = false →
      (e.unitPrice * q ≤ 99999999 → o.lines.length < 200 → 0 ≤ o.itemTotal + (e.unitPrice * q : Nat) →
        o.itemTotal + (e.unitPrice * q : Nat) ≤ 999999999 →
        Serves (.itemAdd tag plu q) tag s .ok (fun _ => [.int 1 (o.lines.length + 1 : Nat), .enum 1])
          (.sale :: s.printParts) s.printKinds fun u t =>
            t.sru.unprinted = ({ u.sru with openSlot := some { o with lines := o.lines ++
              [{ number := o.lines.length + 1, kind := .item, state := .posted, plu := some plu, text := e.text,
                 quantity := some q, mass := none, unitPrice := some e.unitPrice, basis := some .each,
                 amount := (e.unitPrice * q : Nat), voided := none, card := none, print := .notQueued }] } } :
              Sru).unprinted) ∧
      ((99999999 < e.unitPrice * q ∨ 200 ≤ o.lines.length ∨ o.itemTotal + (e.unitPrice * q : Nat) < 0 ∨
          999999999 < o.itemTotal + (e.unitPrice * q : Nat)) →
        Refuses (.itemAdd tag plu q) tag s .limit)) ∧
    (∀ e, s.tbs.findItem plu = some e → e.basis = .each → e.refer = true →
      (o.lines.length < 200 → o.referrals.length < 4 →
        Serves (.itemAdd tag plu q) tag s .ok (fun _ => [.int 1 (o.lines.length + 1 : Nat), .enum 0])
          (.sale :: s.printParts) (7 :: s.printKinds) fun u t =>
            t.sru.unprinted = ({ u.sru with openSlot := some { o with
              referrals := o.referrals ++ [⟨o.lines.length + 1, .refer, u.clock + u.lli.params.referralTimeout * 1000000⟩]
              lines := o.lines ++
              [{ number := o.lines.length + 1, kind := .item, state := .referred, plu := some plu, text := e.text,
                 quantity := some q, mass := none, unitPrice := some e.unitPrice, basis := some .each, amount := 0,
                 voided := none, card := none, print := .notQueued }] } } : Sru).unprinted ∧
            Notified t (.referral (o.outstanding ++ [o.lines.length + 1]))) ∧
      ((200 ≤ o.lines.length ∨ 4 ≤ o.referrals.length) → Refuses (.itemAdd tag plu q) tag s .limit)) ∧
    (s.tbs.findItem plu = none →
      (o.lines.length < 200 → o.referrals.length < 4 →
        Serves (.itemAdd tag plu q) tag s .ok (fun _ => [.int 1 (o.lines.length + 1 : Nat), .enum 0])
          (.sale :: s.printParts) (7 :: s.printKinds) fun u t =>
            t.sru.unprinted = ({ u.sru with openSlot := some { o with
              referrals := o.referrals ++ [⟨o.lines.length + 1, .missing, u.clock + u.lli.params.referralTimeout * 1000000⟩]
              lines := o.lines ++
              [{ number := o.lines.length + 1, kind := .item, state := .referred, plu := some plu, text := [],
                 quantity := some q, mass := none, unitPrice := none, basis := none, amount := 0, voided := none,
                 card := none, print := .notQueued }] } } : Sru).unprinted ∧
            Notified t (.referral (o.outstanding ++ [o.lines.length + 1]))) ∧
      ((200 ≤ o.lines.length ∨ 4 ≤ o.referrals.length) → Refuses (.itemAdd tag plu q) tag s .limit)) ∧
    (∀ e, s.tbs.findItem plu = some e → e.basis ≠ .each → Refuses (.itemAdd tag plu q) tag s .notEach))

/-- R69, R65: ITEM_TEXT is taken in OPEN alone; the amount's range, the text's length and the admission checks refuse it;
taken, it appends a POSTED TEXT line with the text and the amount and nothing else. Requests are taken at the router of log
6. -/
def Obligations.ItemTextAppendsATextLine : Prop :=
  ∀ (tag : Byte) (text : List Byte) (amount : Int) (s : State),
    (s.openSale? = none → Refuses (.itemText tag text amount) tag s .state) ∧
    (∀ o, s.openSale? = some o →
      (99999999 < amount.natAbs → text.length ≤ 24 → Refuses (.itemText tag text amount) tag s .range) ∧
      (amount.natAbs ≤ 99999999 → 24 < text.length → Refuses (.itemText tag text amount) tag s .length) ∧
      (amount.natAbs ≤ 99999999 → text.length ≤ 24 →
        (200 ≤ o.lines.length ∨ o.itemTotal + amount < 0 ∨ 999999999 < o.itemTotal + amount) →
        Refuses (.itemText tag text amount) tag s .limit) ∧
      (amount.natAbs ≤ 99999999 → text.length ≤ 24 → o.lines.length < 200 → 0 ≤ o.itemTotal + amount →
        o.itemTotal + amount ≤ 999999999 →
        Serves (.itemText tag text amount) tag s .ok (fun _ => [.int 1 (o.lines.length + 1 : Nat)]) (.sale :: s.printParts)
          s.printKinds fun u t =>
            t.sru.unprinted = ({ u.sru with openSlot := some { o with lines := o.lines ++
              [{ number := o.lines.length + 1, kind := .text, state := .posted, plu := none, text := text,
                 quantity := none, mass := none, unitPrice := none, basis := none, amount := amount, voided := none,
                 card := none, print := .notQueued }] } } : Sru).unprinted))

/-- R72, R63, R73: LINE_VOID of a POSTED item line or CASH line appends a VOID line of the negated amount and marks the
line VOIDED; a CASH void that leaves no tender returns the sale to OPEN; a REFERRED line becomes VOIDED with amount 0 and
leaves the referral list. A VOIDED, VOID or CARD line is refused STATE, an unknown number RANGE. That a VOID line's text is
empty is the model's choice (log 45). Requests are taken at the router of log 6. -/
def Obligations.LineVoidNegatesALine : Prop :=
  ∀ (tag : Byte) (n : Nat) (s : State) (o : Sale), s.sru.openSlot = some o → (o.state = .opened ∨ o.state = .tendering) →
    (o.line? n = none → Refuses (.lineVoid tag n) tag s .range) ∧
    (∀ l, o.line? n = some l →
      let marked : Sale := { o with lines := (o.lines.map fun x => if x.number = n then { x with state := .voided } else x) ++
        [{ number := o.lines.length + 1, kind := .void, state := .posted, plu := none, text := [], quantity := none,
           mass := none, unitPrice := none, basis := none, amount := -l.amount, voided := some n, card := none,
           print := .notQueued }] }
      (l.state = .posted → l.kind.isItem = true → o.lines.length < 200 → 0 ≤ o.itemTotal - l.amount →
        o.itemTotal - l.amount ≤ 999999999 → (o.state = .tendering → 0 ≤ o.balance - l.amount) →
        Serves (.lineVoid tag n) tag s .ok (fun _ => [.flag true, .int 1 (o.lines.length + 1 : Nat)])
          (.sale :: s.printParts) s.printKinds fun u t =>
            t.sru.unprinted = ({ u.sru with openSlot := some marked } : Sru).unprinted) ∧
      (l.state = .posted → l.kind = .cash → o.lines.length < 200 →
        Serves (.lineVoid tag n) tag s .ok (fun _ => [.flag true, .int 1 (o.lines.length + 1 : Nat)])
          (.sale :: s.printParts) s.printKinds fun u t =>
            t.sru.unprinted = ({ u.sru with openSlot := some { marked with
              state := if marked.tenderTotal = 0 ∧ ∀ x ∈ marked.lines, x.kind ≠ .card then .opened else o.state } } :
              Sru).unprinted) ∧
      (l.state = .referred → l.kind.isItem = true →
        Serves (.lineVoid tag n) tag s .ok (fun _ => [.flag false]) (.sale :: s.printParts) (7 :: s.printKinds) fun u t =>
          t.sru.unprinted = ({ u.sru with openSlot := some { o with
            lines := o.lines.map fun x => if x.number = n then { x with state := .voided, amount := 0 } else x
            referrals := o.referrals.filter fun x => x.line != n } } : Sru).unprinted ∧
          Notified t (.referral (o.outstanding.filter fun x => x != n))) ∧
      ((l.state = .voided ∨ l.kind = .void ∨ l.kind = .card) → Refuses (.lineVoid tag n) tag s .state))

/-- R74, R75, R40: an accepted referral posts its line at the unit price of a WEIGHED line, or at the amount given for
another; a rejected one, or one whose timer expires, voids it at amount 0; each leaves the list and REFERRAL is raised with
the rest; an answer for a line without an entry is refused TOO_LATE. Due times are those of log 4, and requests are taken at
the router of log 6. -/
def Obligations.ReferralsAreAnsweredOrVoided : Prop :=
  ∀ (s : State) (n : Nat) (o : Sale), s.sru.openSlot = some o →
    let rest := o.referrals.filter fun x => x.line != n
    let voided : Sale := { o with
      lines := o.lines.map fun x => if x.number = n then { x with state := .voided, amount := 0 } else x
      referrals := rest }
    (∀ r, (o.referrals.find? fun x => x.line == n) = some r →
      Does (.referralTimerExpiry n) s (.clock :: .sale :: s.printParts) (7 :: s.printKinds) fun t =>
        t.clock = max s.clock r.due ∧ t.sru.unprinted = ({ s.sru with openSlot := some voided } : Sru).unprinted ∧
        Notified t (.referral (rest.map Referral.line))) ∧
    ((o.state = .opened ∨ o.state = .tendering) → ∀ tag : Byte,
      (n ∉ o.outstanding → Refuses (.referralAnswerReject tag n) tag s .tooLate ∧
        ∀ p, Refuses (.referralAnswerAccept tag n p) tag s .tooLate) ∧
      (∀ l, n ∈ o.outstanding → o.line? n = some l →
        (Serves (.referralAnswerReject tag n) tag s .ok (fun _ => []) (.sale :: s.printParts) (7 :: s.printKinds) fun u t =>
          t.sru.unprinted = ({ u.sru with openSlot := some voided } : Sru).unprinted ∧
          Notified t (.referral (rest.map Referral.line))) ∧
        (∀ m b price₁ unit, l.kind = .weighed → l.mass = some m → l.basis = some b → unit ≤ 999999 →
          price₁ = price m.certified unit b → price₁ ≤ 99999999 → 0 ≤ o.itemTotal + price₁ →
          o.itemTotal + price₁ ≤ 999999999 →
          Serves (.referralAnswerAccept tag n (.unitPrice unit)) tag s .ok (fun _ => []) (.sale :: s.printParts)
            (7 :: s.printKinds) fun u t =>
              t.sru.unprinted = ({ u.sru with openSlot := some { o with
                lines := o.lines.map fun x => if x.number = n then
                  { x with state := .posted, amount := price₁, unitPrice := some unit, basis := some b } else x
                referrals := rest } } : Sru).unprinted ∧
              Notified t (.referral (rest.map Referral.line))) ∧
        (∀ a : Int, l.kind ≠ .weighed → a.natAbs ≤ 99999999 → 0 ≤ o.itemTotal + a → o.itemTotal + a ≤ 999999999 →
          Serves (.referralAnswerAccept tag n (.amount a)) tag s .ok (fun _ => []) (.sale :: s.printParts)
            (7 :: s.printKinds) fun u t =>
              t.sru.unprinted = ({ u.sru with openSlot := some { o with
                lines := o.lines.map fun x => if x.number = n then { x with state := .posted, amount := a } else x
                referrals := rest } } : Sru).unprinted ∧
              Notified t (.referral (rest.map Referral.line)))))

/-- R76, R84: TENDER_CASH appends a CASH line; while a balance is due the sale stands in TENDERING, else it is SETTLED with
the change; an amount outside its range is refused RANGE, an outstanding referral or a waiting capture STATE. That a CASH
line's text is empty is the model's choice (log 45). Requests are taken at the router of log 6. -/
def Obligations.CashTenderAppendsALineOrSettles : Prop :=
  ∀ (tag : Byte) (amount : Nat) (s : State) (o : Sale), s.sru.openSlot = some o →
    (o.state = .opened ∨ o.state = .tendering) →
    ((amount < 1 ∨ 999999999 < amount) → Refuses (.tenderCash tag amount) tag s .range) ∧
    (1 ≤ amount → amount ≤ 999999999 → (o.referrals ≠ [] ∨ s.wch.capture ≠ none) →
      Refuses (.tenderCash tag amount) tag s .state) ∧
    (1 ≤ amount → amount ≤ 999999999 → o.referrals = [] → s.wch.capture = none → o.lines.length < 200 →
      let paid : Sale := { o with state := .tendering, lines := o.lines ++
        [{ number := o.lines.length + 1, kind := .cash, state := .posted, plu := none, text := [], quantity := none,
           mass := none, unitPrice := none, basis := none, amount := amount, voided := none, card := none,
           print := .notQueued }] }
      (0 < paid.balance →
        Serves (.tenderCash tag amount) tag s .ok
          (fun _ => [.int 1 (o.lines.length + 1 : Nat), .enum SaleState.tendering.code, .int 4 paid.balance])
          (.sale :: .accessory :: s.printParts) (14 :: s.printKinds) fun u t =>
            t.sru.unprinted = ({ u.sru with openSlot := some paid } : Sru).unprinted ∧
            (o.state = .opened → t.acp.held = none)) ∧
      (paid.balance ≤ 0 →
        Serves (.tenderCash tag amount) tag s .ok
          (fun _ => [.int 1 (o.lines.length + 1 : Nat), .enum SaleState.settled.code, .int 4 (-paid.balance)])
          closingParts [2, 9, 12, 13, 14] fun u t =>
            SettledAs { paid with changeDue := -paid.balance } u t ∧ t.sdc = u.sdc ∧ (o.state = .opened → t.acp.held = none)))

/-- R77, R101: TENDER_CARD of a HELD record of that serial, with track B OK and an account, for at most the balance, puts
the sale in AUTH_WAIT with its timer, binds the record and clears the late-answer marker; without such a record it is
refused NO_CARD. Requests are taken at the router of log 6. -/
def Obligations.CardTenderWaitsAndBindsTheRecord : Prop :=
  ∀ (tag : Byte) (amount serial : Nat) (s : State) (o : Sale), s.sru.openSlot = some o →
    (o.state = .opened ∨ o.state = .tendering) → 1 ≤ amount → amount ≤ 999999999 → o.referrals = [] →
    s.wch.capture = none →
    (∀ r due, s.sdc.slot = .held r due → r.serial = serial → r.trackB.status = .ok → r.account ≠ none →
      (amount : Int) ≤ o.balance → o.lines.length < 200 →
      Serves (.tenderCard tag amount serial) tag s .accepted (fun _ => []) [.sale, .stripe, .accessory] [14] fun u t =>
        t.sru = { u.sru with lateAnswer := false, openSlot := some { o with
          state := .authWait
          cardTender := some ⟨amount, serial, u.clock + u.lli.params.authTimeout * 1000000⟩ } } ∧
        t.sdc = { u.sdc with slot := .bound r } ∧ (o.state = .opened → t.acp.held = none)) ∧
    ((∀ r due, s.sdc.slot = .held r due → r.serial ≠ serial ∨ r.trackB.status ≠ .ok ∨ r.account = none) →
      Refuses (.tenderCard tag amount serial) tag s .noCard) ∧
    (∀ r due, s.sdc.slot = .held r due → r.serial = serial → r.trackB.status = .ok → r.account ≠ none →
      o.balance < amount → Refuses (.tenderCard tag amount serial) tag s .limit)

/-- R78 to R80, R104: CARD_APPROVE in AUTH_WAIT appends a CARD line with the masked account, the code and the serial, clears
the record, and settles the sale or returns it to TENDERING; CARD_DECLINE and the authorization timer drop the tender and
clear the record; the timer raises AUTH and sets the late-answer marker, by which a later answer is refused TOO_LATE,
whatever else the open slot then holds; with the marker clear it is refused STATE. That a CARD line's text is empty is the
model's choice (log 45). Due times are those of log 4, and requests are taken at the router of log 6. -/
def Obligations.CardAnswersApproveDeclineOrTimeOut : Prop :=
  (∀ (s : State) (o : Sale) (c : CardTender), s.sru.openSlot = some o → o.state = .authWait → o.cardTender = some c →
    let back : Sale := { o with
      cardTender := none
      state := if ∃ x ∈ o.lines, x.kind = .cash ∨ x.kind = .card then .tendering else .opened }
    (∀ (tag : Byte) (code : List Byte) (r : CardRecord) (a : List Byte), s.sdc.slot = .bound r → r.account = some a →
      1 ≤ code.length → code.length ≤ 8 →
      let paid : Sale := { o with state := .tendering, cardTender := none, lines := o.lines ++
        [{ number := o.lines.length + 1, kind := .card, state := .posted, plu := none, text := [], quantity := none,
           mass := none, unitPrice := none, basis := none, amount := c.amount, voided := none,
           card := some ⟨maskAccount s.lli.params.maskLeadDigits a, code, c.serial⟩, print := .notQueued }] }
      (0 < paid.balance →
        Serves (.cardApprove tag code) tag s .ok
          (fun _ => [.int 1 (o.lines.length + 1 : Nat), .enum SaleState.tendering.code])
          (.sale :: .stripe :: s.printParts) s.printKinds fun u t =>
            t.sru.unprinted = ({ u.sru with openSlot := some paid } : Sru).unprinted ∧
            t.sdc = { u.sdc with slot := .empty }) ∧
      (paid.balance ≤ 0 →
        Serves (.cardApprove tag code) tag s .ok
          (fun _ => [.int 1 (o.lines.length + 1 : Nat), .enum SaleState.settled.code])
          closingParts [2, 9, 12, 13, 14] fun u t =>
            SettledAs { paid with changeDue := 0 } u t ∧ t.sdc = { u.sdc with slot := .empty } ∧ t.acp = u.acp)) ∧
    (∀ (tag : Byte) (code : List Byte), (code.length < 1 ∨ 8 < code.length) →
      Refuses (.cardApprove tag code) tag s .range) ∧
    (∀ tag : Byte,
      Serves (.cardDecline tag) tag s .ok (fun _ => []) (.sale :: .stripe :: s.printParts) s.printKinds fun u t =>
        t.sru.unprinted = ({ u.sru with openSlot := some back } : Sru).unprinted ∧
        t.sdc = { u.sdc with slot := .empty }) ∧
    Does .authorizationTimeout s (.clock :: .sale :: .stripe :: s.printParts) (8 :: s.printKinds) fun t =>
      t.clock = max s.clock c.due ∧
      t.sru.unprinted = ({ s.sru with openSlot := some back, lateAnswer := true } : Sru).unprinted ∧
      t.sdc = { s.sdc with slot := .empty } ∧ Notified t (.auth true)) ∧
  (∀ (tag : Byte) (code : List Byte) (s : State),
    (∀ o, s.sru.openSlot = some o → o.state ≠ .authWait ∨ o.cardTender = none) →
    Refuses (.cardApprove tag code) tag s (if s.sru.lateAnswer then .tooLate else .state) ∧
    Refuses (.cardDecline tag) tag s (if s.sru.lateAnswer then .tooLate else .state))

/-- R81, R82, R67: SALE_SUSPEND moves an OPEN sale without referrals or tenders into the free closing slot as
CLOSING/SUSPENDED while the stack has a place; SALE_RESUME takes the top of the stack back into the empty open slot, OPEN
and marked resumed. Requests are taken at the router of log 6. -/
def Obligations.SuspendAndResumeMoveTheSale : Prop :=
  (∀ (tag : Byte) (s : State) (o : Sale), s.openSale? = some o → o.referrals = [] →
    (∀ x ∈ o.lines, x.kind ≠ .cash ∧ x.kind ≠ .card) → s.wch.capture = none →
    (s.sru.closing = none → s.sru.stack.length < 3 →
      Serves (.saleSuspend tag) tag s .ok (fun _ => []) (.sale :: .printer :: .accessory :: .tables :: s.printParts)
        (9 :: 13 :: 14 :: s.printKinds) fun u t =>
          t.sru.unprinted = ({ u.sru with
            openSlot := none
            closing := some { o with state := .closing, closingKind := some .suspended } } : Sru).unprinted ∧
          t.acp.held = none ∧ Notified t (.sale o.tag (.live .closing) o.incomplete)) ∧
    (s.sru.closing ≠ none → Refuses (.saleSuspend tag) tag s .busy) ∧
    (s.sru.closing = none → 3 ≤ s.sru.stack.length → Refuses (.saleSuspend tag) tag s .limit)) ∧
  (∀ (tag : Byte) (s : State),
    (∀ o rest, s.sru.openSlot = none → s.sru.stack = o :: rest →
      Serves (.saleResume tag) tag s .ok (fun _ => [.int 2 o.tag]) (.sale :: s.printParts) (9 :: s.printKinds) fun u t =>
        t.sru.unprinted = ({ u.sru with
          stack := rest
          openSlot := some { o with state := .opened, resumed := true, itemGen := u.tbs.item.generation } } :
          Sru).unprinted ∧
        Notified t (.sale o.tag (.live .opened) o.incomplete)) ∧
    ((s.sru.openSlot ≠ none ∨ s.sru.stack = []) → Refuses (.saleResume tag) tag s .state))

/-- R83, R67, R22, R80, R108: SALE_ABORT of a sale without CARD lines voids its referrals, ends its card tender and its
capture, issues ABORT_CASH for cash held, reports ABORTED and lets the sale close. Requests are taken at the router of log
6. -/
def Obligations.SaleAbortEndsTheSaleAtOneEvent : Prop :=
  ∀ (tag : Byte) (s : State) (o : Sale), s.sru.openSlot = some o →
    (o.state = .opened ∨ o.state = .tendering ∨ o.state = .authWait) →
    ((∃ x ∈ o.lines, x.kind = .card) → Refuses (.saleAbort tag) tag s .state) ∧
    ((∀ x ∈ o.lines, x.kind ≠ .card) →
      Serves (.saleAbort tag) tag s .ok (fun _ => []) closingParts [2, 3, 7, 8, 9, 12, 13, 14] fun u t =>
        let aborted : Sale := { o with
          state := .aborted, cardTender := none, referrals := []
          lines := o.lines.map fun x =>
            if x.number ∈ o.outstanding then { x with state := .voided, amount := 0 } else x }
        t.sru.unprinted =
          (match u.sru.closing with
           | none =>
             { u.sru with
               openSlot := none
               closing := some { aborted with state := .closing, closingKind := some .aborted }
               lateAnswer := u.sru.lateAnswer || o.cardTender.isSome }
           | some _ =>
             { u.sru with openSlot := some aborted, lateAnswer := u.sru.lateAnswer || o.cardTender.isSome }).unprinted ∧
        Notified t (.sale o.tag (.live .aborted) o.incomplete) ∧
        (o.referrals ≠ [] → Notified t (.referral [])) ∧
        (o.cardTender ≠ none → Notified t (.auth false) ∧ t.sdc = { u.sdc with slot := .empty }) ∧
        (o.cardTender = none → t.sdc = u.sdc) ∧ t.sst = u.sst ∧
        (o.state = .opened → t.wch.capture = none ∧ t.acp.held = none) ∧
        (∀ c, o.state = .opened → u.wch.capture = some c → Notified t (.capture c.source .abandoned none)) ∧
        (0 < o.tenderTotal → u.tlc.state = .closed → u.tlc.auth = none → t.tlc.auth = some (.abortCash o.tag)) ∧
        (o.tenderTotal ≤ 0 → t.tlc.auth = u.tlc.auth))

/-- R85, R108, R109: NO_SALE in a READY lane with no open sale issues an authorization and answers the till's outcome: a
CLOSED drawer with an empty slot takes it, keeps it under a hold and else asks for a grant; an open drawer satisfies it, any
other state merges it, and then nothing changes. Requests are taken at the router of log 6. -/
def Obligations.NoSaleIssuesAnAuthorization : Prop :=
  ∀ (tag : Byte) (s : State),
    ((s.lli.lane ≠ .ready ∨ s.sru.openSlot ≠ none) → Refuses (.noSale tag) tag s .state) ∧
    (s.lli.lane = .ready → s.sru.openSlot = none →
      (s.tlc.state = .closed → s.tlc.auth = none →
        Serves (.noSale tag) tag s .ok (fun _ => [.enum 0]) [.till, .budget, .weighing, .printer] [2] fun u t =>
          t.tlc.auth = some .noSale ∧
          ((u.pbu.warning = true ∨ u.wch.state = .cal) → t.tlc.state = .closed ∧ t.pbu = u.pbu ∧ t.wch = u.wch) ∧
          (u.pbu.warning = false → u.wch.state ≠ .cal → u.pbu.arbiter = none → u.pbu.pulse = none →
            grantSum u.pbu.grants + 40 ≤ 64 →
            t.tlc.state = .pulsing (u.clock + u.lli.params.drawerPulse * 1000) ∧ t.wch.window = .opened none ∧
            t.pbu.grants = u.pbu.grants ++ [⟨.solenoid, u.clock, 40⟩]) ∧
          (u.pbu.warning = false → u.wch.state ≠ .cal → u.pbu.arbiter ≠ none →
            t.tlc.state = .waitGrant ∧ t.pbu.solenoidReq = some u.clock)) ∧
      (((∃ f d, s.tlc.state = .opened f d) ∨ ∃ f, s.tlc.state = .overdue f) →
        Serves (.noSale tag) tag s .ok (fun _ => [.enum 2]) [] [] fun _ _ => True) ∧
      ((s.tlc.state = .waitGrant ∨ (∃ d, s.tlc.state = .pulsing d) ∨ (∃ d, s.tlc.state = .confirming d) ∨
          s.tlc.state = .jammed ∨ (s.tlc.state = .closed ∧ s.tlc.auth ≠ none)) →
        Serves (.noSale tag) tag s .ok (fun _ => [.enum 1]) [] [] fun _ _ => True))

/-! ## Card stripe reading -/

/-- R89 to R93, R99: a transition on either track with both decoders IDLE starts a swipe with the format copies and the
first end time; a later one gives its interval to the decoder of its track, or is that track's first, and moves the end
time to the latest quiet time of the two tracks; that a time before the last one gives the interval 0 is the model's choice
(log 28). The eighth lead-in interval forms the cell estimate, or ends the bit stage with SPEED; the bit stage takes an
interval as a full cell when four times it is at least three cells; a bit beyond 1,024 ends it with OVERLENGTH; DONE
decodes nothing; at the end of the swipe the outcome enters the slot HELD under the next serial, unless both tracks are
NO_DATA or the slot is BOUND. Due times are those of log 4. -/
def Obligations.SwipesAreTimedDecodedAndPlaced : Prop :=
  (∀ (k : Track) (time : Nat) (s : State), s.sdc.trackA.state = .idle → s.sdc.trackB.state = .idle →
    Does (.stripeFluxTransition k time) s [.clock, .stripe] [] fun t =>
      let entered := fun j : Track => (⟨.leadin, none, 0, 0, if j = k then some time else none, none, [], none⟩ : Decoder)
      t.clock = max s.clock time ∧ t.sdc.slot = s.sdc.slot ∧ t.sdc.counter = s.sdc.counter ∧
      t.sdc.swipe = some ⟨s.tbs.findFormat .a, s.tbs.findFormat .b, s.tbs.cardFormat.generation, time + 20000⟩ ∧
      t.sdc.trackA = entered .a ∧ t.sdc.trackB = entered .b) ∧
  (∀ (k j : Track) (time : Nat) (s : State) (w : Swipe), ¬(s.sdc.trackA.state = .idle ∧ s.sdc.trackB.state = .idle) →
    j ≠ k → s.sdc.swipe = some w →
    Does (.stripeFluxTransition k time) s [.clock, .stripe, .tables] [13] fun t =>
      let quiet := fun d : Decoder =>
        match d.lastTime, d.cell with
        | none, _ => 0
        | some x, none => x + 20000
        | some x, some c => x + max 20000 (4 * c)
      t.clock = max s.clock time ∧ t.sdc.slot = s.sdc.slot ∧ t.sdc.counter = s.sdc.counter ∧
      t.sdc.swipe = some { w with ends := max (quiet t.sdc.trackA) (quiet t.sdc.trackB) } ∧
      t.sdc.decoder j = s.sdc.decoder j ∧
      (∀ last, (s.sdc.decoder k).lastTime = some last →
        t.sdc.decoder k = { (s.sdc.decoder k).interval (time - last) with lastTime := some time }) ∧
      ((s.sdc.decoder k).lastTime = none → t.sdc.decoder k = { s.sdc.decoder k with lastTime := some time })) ∧
  (∀ (d : Decoder) (t : Nat),
    (d.state = .leadin → d.intervals < 7 →
      d.interval t = { d with intervals := d.intervals + 1, leadSum := d.leadSum + t }) ∧
    (d.state = .leadin → d.intervals = 7 →
      let c := (d.leadSum + t) / 8
      d.interval t =
        if 20 ≤ c ∧ c ≤ 2000 then
          { d with intervals := 8, leadSum := d.leadSum + t, cell := some c, state := .bits, buffer := [], half := none }
        else { d with intervals := 8, leadSum := d.leadSum + t, cell := some c, status := some .speed, state := .done }) ∧
    (∀ c, d.state = .bits → d.cell = some c → 1024 ≤ d.buffer.length →
      ((3 * c ≤ 4 * t ∧ d.half = none) ∨ (4 * t < 3 * c ∧ d.half ≠ none)) →
      (d.interval t).status = some .overlength ∧ (d.interval t).state = .done ∧ (d.interval t).buffer = d.buffer) ∧
    (d.state = .done → d.interval t = d)) ∧
  (∀ (d : Decoder) (c t : Nat), d.state = .bits → d.cell = some c → d.buffer.length < 1024 →
    (3 * c ≤ 4 * t → d.half = none →
      d.interval t = { d with buffer := d.buffer ++ [false], cell := some ((3 * c + t) / 4) }) ∧
    (3 * c ≤ 4 * t → d.half ≠ none → d.interval t = { d with status := some .badBits, state := .done }) ∧
    (4 * t < 3 * c → d.half = none → d.interval t = { d with half := some t }) ∧
    (∀ h, 4 * t < 3 * c → d.half = some h →
      d.interval t = { d with buffer := d.buffer ++ [true], half := none, cell := some ((3 * c + h + t) / 4) })) ∧
  (∀ (s : State) (w : Swipe), s.sdc.swipe = some w →
    Does .swipeEnd s [.clock, .stripe, .tables] [5, 6, 13] fun t =>
      let a := s.sdc.trackA.outcome w.formatA
      let b := s.sdc.trackB.outcome w.formatB
      let serial := if s.sdc.counter = 65535 then 1 else s.sdc.counter + 1
      t.clock = max s.clock w.ends ∧ t.sdc.trackA = Decoder.idle ∧ t.sdc.trackB = Decoder.idle ∧ t.sdc.swipe = none ∧
      (a.status = .noData → b.status = .noData → t.sdc.slot = s.sdc.slot ∧ t.sdc.counter = s.sdc.counter) ∧
      (¬(a.status = .noData ∧ b.status = .noData) → (∀ r, s.sdc.slot ≠ .bound r) →
        t.sdc.slot = .held ⟨serial, w.generation, a, b, accountOf w.formatB b⟩
          (t.clock + s.lli.params.cardExpiry * 1000000) ∧
        t.sdc.counter = serial ∧ Notified t (.card serial a.status b.status)) ∧
      (∀ r, ¬(a.status = .noData ∧ b.status = .noData) → s.sdc.slot = .bound r →
        t.sdc.slot = .bound r ∧ t.sdc.counter = s.sdc.counter ∧ Notified t (.cardCleared .refused)))

/-- R94 to R97: a track written as its format says is read back: from the start sentinel to the end sentinel with odd parity
and its LRC, whatever bits follow, its status is OK and its characters are those written; in a buffer read backwards, in
which no start is found forward, the direction is REVERSE. -/
def Obligations.StripeTracksAreReadBackAsWritten : Prop :=
  ∀ (e : FormatEntry) (middle : List Nat) (after : List Bool), 4 ≤ e.width → e.width ≤ 6 → e.start < 2 ^ e.width →
    e.stop < 2 ^ e.width → e.start ≠ e.stop → (∀ v ∈ middle, v < 2 ^ e.width ∧ v ≠ e.stop) →
    middle.length + 2 ≤ e.maxChars →
    let values := e.start :: middle ++ [e.stop]
    let buffer := trackBits e.width values ++ after
    searchTrack e buffer = ⟨.ok, some .forward, values.map (charByte e.width)⟩ ∧
    (findStart e.width e.start buffer.reverse = none →
      searchTrack e buffer.reverse = ⟨.ok, some .reverse, values.map (charByte e.width)⟩)

/-- R100: the expiry timer that started with the record runs out on its own length: the record is dropped, the slot is
EMPTY, and CARD_CLEARED is raised with EXPIRED; a record enters the slot with the expiry then in effect, and SET_PARAM
leaves a running timer alone. R103: CARD_RELEASE of the HELD record's serial empties the slot and is OK with no notice; of
another serial, or with the slot EMPTY, it is refused TOO_LATE, and STATE while the record is BOUND. The model's choice,
not the spec's: the clock is at the due time, or past it, once the expiry has come (log 4). Requests are taken at the
router of log 6. -/
def Obligations.HeldCardRecordsExpireOrAreReleased : Prop :=
  ((∀ (s : State) (r : CardRecord) (due : Nat), s.sdc.slot = .held r due →
     Does .cardRecordExpiry s [.clock, .stripe] [6] fun t =>
       t.clock = max s.clock due ∧ t.sdc = { s.sdc with slot := .empty } ∧ Notified t (.cardCleared .expired)) ∧
   (∀ (w : Swipe) (a b : TrackOutcome) (s : State), ¬(a.status = .noData ∧ b.status = .noData) →
     (∀ r, s.sdc.slot ≠ .bound r) →
     ∃ r, (placeRecord w a b s).sdc.slot = .held r (s.clock + s.lli.params.cardExpiry * 1000000)) ∧
   (∀ (tag : Byte) (name : List Byte) (v : BitVec 32) (s u t : State), AtRouter (.setParam tag name v) s u →
     exec (.setParam tag name v) s = .next t → t.sdc = u.sdc)) ∧
  (∀ (tag : Byte) (serial : Nat) (s : State),
     (∀ r due, s.sdc.slot = .held r due → r.serial = serial →
       Serves (.cardRelease tag serial) tag s .ok (fun _ => []) [.stripe] [] fun u t =>
         t.sdc = { u.sdc with slot := .empty }) ∧
     (∀ r due, s.sdc.slot = .held r due → r.serial ≠ serial → Refuses (.cardRelease tag serial) tag s .tooLate) ∧
     (∀ r, s.sdc.slot = .bound r → Refuses (.cardRelease tag serial) tag s .state) ∧
     (s.sdc.slot = .empty → Refuses (.cardRelease tag serial) tag s .tooLate))

/-- R104: the masked account of 12 to 19 digits keeps its first m and last four, has "*" between them, at least twice, and
the same length; a CARD line takes it with the parameter then in effect, and a later SET_PARAM leaves the sale's lines
alone. Requests are taken at the router of log 6. -/
def Obligations.MaskedAccountKeepsLeadAndLastFour : Prop :=
  (∀ (m : Nat) (account : List Byte), m ≤ 6 → 12 ≤ account.length → account.length ≤ 19 →
    (maskAccount m account).length = account.length ∧ (maskAccount m account).take m = account.take m ∧
    (maskAccount m account).drop (account.length - 4) = account.drop (account.length - 4) ∧
    (∀ i, m ≤ i → i < account.length - 4 → (maskAccount m account)[i]? = some 42) ∧ 2 ≤ account.length - 4 - m) ∧
  (∀ (c : CardTender) (code account : List Byte) (r : CardRecord) (s : State), s.sdc.slot = .bound r →
    r.account = some account →
    (cardLine c code s).card = some ⟨maskAccount s.lli.params.maskLeadDigits account, code, c.serial⟩) ∧
  (∀ (tag : Byte) (name : List Byte) (v : BitVec 32) (s u t : State), AtRouter (.setParam tag name v) s u →
    exec (.setParam tag name v) s = .next t → t.sru = u.sru)

/-! ## The till -/

/-- R110 to R115: the switch opening in any state but OPEN and OVERDUE consumes the authorization and enters OPEN with the
overdue timer and DRAWER; it is unauthorized only in CLOSED with an empty slot; it ends a pulse and withdraws a waiting
request. The switch closing an OPEN or OVERDUE drawer enters CLOSED with DRAWER. -/
def Obligations.DrawerSwitchMovesTheDrawer : Prop :=
  ∀ (s : State),
    (s.tlc.switchOpen = false → (∀ u d, s.tlc.state ≠ .opened u d) → (∀ u, s.tlc.state ≠ .overdue u) →
      Does .drawerSwitchOpens s
        ([.pins, .till] ++ s.switchParts) [2, 11] fun t =>
          let flag := decide (s.tlc.state = .closed ∧ s.tlc.auth = none)
          t.tlc = ⟨true, none, 0, .opened flag (s.clock + s.lli.params.drawerOverdue * 1000000)⟩ ∧
          t.pins = { s.pins with drawerOpen := true } ∧ Notified t (.drawer t.tlc.state flag s.tlc.auth) ∧
          (s.tlc.state = .waitGrant → t.pbu.solenoidReq = none) ∧
          (∀ d x, s.tlc.state = .pulsing d → s.pbu.solenoidReq = none → s.wch.window = .opened x →
            t.pbu.pulse = none ∧ t.wch.window = .opened (some (s.clock + s.lli.params.disturbanceSettle * 1000)))) ∧
    (s.tlc.switchOpen = true → ((∃ u d, s.tlc.state = .opened u d) ∨ ∃ u, s.tlc.state = .overdue u) →
      Does .drawerSwitchCloses s [.pins, .till] [11] fun t =>
        t.tlc = { s.tlc with switchOpen := false, state := .closed } ∧ t.pins = { s.pins with drawerOpen := false } ∧
        Notified t (.drawer .closed false none))

/-- R111, R112, R114, R117: the pulse timer ends the pulse and starts the confirm timer; the confirm timer makes another
attempt, or after the third pulse enters JAMMED with DRAWER; the overdue timer enters OVERDUE with its flag and DRAWER;
TILL_CLEAR drops the authorization of a JAMMED drawer, or of a CLOSED one, and is refused STATE otherwise. Due times are
those of log 4, and requests are taken at the router of log 6. -/
def Obligations.DrawerTimersAndTillClear : Prop :=
  (∀ (s : State) (due : Nat), s.tlc.state = .pulsing due → s.pbu.solenoidReq = none →
    Does .pulseTimerExpiry s [.clock, .till, .budget, .weighing, .printer] [2] fun t =>
      t.clock = max s.clock due ∧ t.pbu.pulse = none ∧
      t.tlc = { s.tlc with state := .confirming (t.clock + s.lli.params.drawerConfirm * 1000) } ∧
      (∀ x, s.wch.window = .opened x →
        t.wch = { s.wch with window := .opened (some (t.clock + s.lli.params.disturbanceSettle * 1000)) })) ∧
  (∀ (s : State) (due : Nat), s.tlc.state = .confirming due →
    (3 ≤ s.tlc.retries →
      Does .confirmTimerExpiry s [.clock, .till] [11] fun t =>
        t.clock = max s.clock due ∧ t.tlc = { s.tlc with state := .jammed } ∧
        Notified t (.drawer .jammed false s.tlc.auth)) ∧
    (s.tlc.retries < 3 → (s.pbu.warning = true ∨ s.wch.state = .cal) →
      Does .confirmTimerExpiry s [.clock, .till] [] fun t => t.tlc = { s.tlc with state := .closed }) ∧
    (s.tlc.retries < 3 → s.pbu.warning = false → s.wch.state ≠ .cal → s.pbu.arbiter = none → s.pbu.pulse = none →
      grantSum s.pbu.grants + 40 ≤ 64 →
      Does .confirmTimerExpiry s [.clock, .till, .budget, .weighing] [2] fun t =>
        t.tlc = { s.tlc with
          retries := s.tlc.retries + 1, state := .pulsing (t.clock + s.lli.params.drawerPulse * 1000) } ∧
        t.pbu.pulse = some t.clock ∧ t.wch.window = .opened none)) ∧
  (∀ (s : State) (u : Bool) (due : Nat), s.tlc.state = .opened u due →
    Does .overdueTimerExpiry s [.clock, .till] [11] fun t =>
      t.clock = max s.clock due ∧ t.tlc = { s.tlc with state := .overdue u } ∧ Notified t (.drawer (.overdue u) u none)) ∧
  (∀ (tag : Byte) (s : State),
    (s.tlc.state = .jammed →
      Serves (.tillClear tag) tag s .ok (fun _ => []) [.till] [11] fun u t =>
        t.tlc = { u.tlc with auth := none, retries := 0, state := .closed } ∧ Notified t (.drawer .closed false none)) ∧
    (s.tlc.state = .closed → s.tlc.auth ≠ none →
      Serves (.tillClear tag) tag s .ok (fun _ => []) [.till] [] fun u t =>
        t.tlc = { u.tlc with auth := none, retries := 0 }) ∧
    ((s.tlc.state ≠ .jammed ∧ ¬(s.tlc.state = .closed ∧ s.tlc.auth ≠ none)) → Refuses (.tillClear tag) tag s .state))

/-! ## Receipt printing -/

/-- R131: the phase splitter takes the blocks in order and skips those without dots; each phase's dots are the sum of its
blocks and at most D_max; a block opens a new phase only where the one before has no room for it; a row has up to six
phases, none when it has no dots, and a phase costs its dots over 16, rounded up, 1 to 24. The density is the one in effect
when the row begins. -/
def Obligations.PhaseSplitterPacksBlocksInOrder : Prop :=
  (∀ (dMax : Nat) (counts : List Nat), 64 ≤ dMax → dMax ≤ 384 → counts.length = 6 → (∀ b ∈ counts, b ≤ 64) →
    let phases := splitPhases dMax counts
    phases.flatMap Phase.blocks = (List.range 6).filter (fun j => counts.getD j 0 != 0) ∧
    (∀ p ∈ phases, p.blocks ≠ [] ∧ p.dots = (p.blocks.map fun j => counts.getD j 0).sum ∧ p.dots ≤ dMax ∧
      16 * p.cost < p.dots + 16 ∧ p.dots ≤ 16 * p.cost ∧ 1 ≤ p.cost ∧ p.cost ≤ 24) ∧
    (∀ k p q, phases[k]? = some p → phases[k + 1]? = some q → ∀ j, q.blocks.head? = some j →
      dMax < p.dots + counts.getD j 0) ∧
    phases.length ≤ 6 ∧ (counts.sum = 0 → phases = [])) ∧
  (∀ (l : PrintLine) (s : State),
    splitPhases s.lli.params.printDensity (blockCounts (rowDots s.tbs.font.active l.glyphRow l.text)) = [] →
    (startRow l s).pen.state = .printing [] (.stepping (s.clock + 1000))) ∧
  (∀ (l : PrintLine) (s : State) (p : Phase) (rest : List Phase),
    splitPhases s.lli.params.printDensity (blockCounts (rowDots s.tbs.font.active l.glyphRow l.text)) = p :: rest →
    (startRow l s).pen.state = .printing rest (.waiting p) ∨
    (startRow l s).pen.state = .printing rest (.strobing p (s.clock + 400)))

/-- R132, R133, R150, R151, R153: at the end of a strobe the row asks for its next phase, granted at once when the budget
has room, or makes its paper step; at the end of a row the line has one row more, and a line printed whole leaves its feed,
96 rows and an owed cut where it is cut after; a feed step counts down, and an owed cut follows the last. R137, R138: at
the end of a row or a step a kept mark halts the printer with its cause, the head line to be printed again from its first
row, and else the supply warning halts it with SUPPLY, the rows done kept. That a cutter cycle which starts while the
switch stands at AWAY has shown AWAY is the model's choice (log 29). Due times are those of log 4. -/
def Obligations.RowsStepsAndFeedsFollowEachOther : Prop :=
  let marked := fun s : State => s.pen.paperMark || s.pen.coverMark
  (∀ (s : State) (rest : List Phase) (p : Phase) (due : Nat), s.pen.state = .printing rest (.strobing p due) →
    (rest = [] →
      Does .phaseEnd s [.clock, .printer, .budget] [] fun t =>
        t.clock = max s.clock due ∧ t.pbu = { s.pbu with strobe := false } ∧
        t.pen = { s.pen with state := .printing [] (.stepping (t.clock + 1000)) }) ∧
    (∀ q qs, rest = q :: qs → s.pbu.arbiter ≠ none → s.pbu.pulse = none →
      Does .phaseEnd s [.clock, .printer, .budget] [] fun t =>
        t.clock = max s.clock due ∧
        (grantSum s.pbu.grants + q.cost ≤ 64 →
          t.pen = { s.pen with state := .printing qs (.strobing q (t.clock + 400)) } ∧
          t.pbu = { s.pbu with
            strobe := true, phaseReq := none, grants := s.pbu.grants ++ [⟨.phase, t.clock, q.cost⟩] }) ∧
        (64 < grantSum s.pbu.grants + q.cost →
          t.pen = { s.pen with state := .printing qs (.waiting q) } ∧
          t.pbu = { s.pbu with strobe := false, phaseReq := some ⟨false, q.cost, t.clock⟩ }))) ∧
  (∀ (s : State) (rest : List Phase) (due : Nat) (l : PrintLine) (q : List QueueEntry),
    s.pen.state = .printing rest (.stepping due) → s.pen.queue = .line l :: q → s.pen.paperMark = false →
    s.pen.coverMark = false → s.pbu.warning = false →
    Does .rowEnd s [.clock, .sale, .printer, .budget, .till, .weighing, .tables] [2, 12, 13] fun t =>
      t.clock = max s.clock due ∧ t.pen.sinceGlyph = 0 ∧ t.sru.unprinted = s.sru.unprinted ∧
      (l.rowsDone + 1 < l.rows → t.pen.queue = .line { l with rowsDone := l.rowsDone + 1 } :: q) ∧
      (l.rows ≤ l.rowsDone + 1 → l.cutAfter = true →
        t.pen.feed = 96 ∧ t.pen.owed = some l.saleTag ∧ t.pen.state = .feeding (t.clock + 1000)) ∧
      (l.rows ≤ l.rowsDone + 1 → l.cutAfter = false → 24 < s.lli.params.linePitch →
        t.pen.feed = min 255 (s.pen.feed + (s.lli.params.linePitch - 24)) ∧
        t.pen.state = .feeding (t.clock + 1000))) ∧
  (∀ (s : State) (rest : List Phase) (due : Nat) (l : PrintLine) (q : List QueueEntry),
    s.pen.state = .printing rest (.stepping due) → s.pen.queue = .line l :: q →
    (s.pen.paperMark = true ∨ s.pen.coverMark = true ∨ s.pbu.warning = true) →
    Does .rowEnd s [.clock, .sale, .printer, .budget, .till, .weighing, .tables] [2, 12, 13] fun t =>
      t.clock = max s.clock due ∧ t.pen.sinceGlyph = 0 ∧ t.sru.unprinted = s.sru.unprinted ∧ HaltedFor s t ∧
      (l.rowsDone + 1 < l.rows →
        t.pen.queue = .line { l with rowsDone := if marked s then 0 else l.rowsDone + 1 } :: q ∧
        t.pen.feed = s.pen.feed ∧ t.pen.owed = s.pen.owed) ∧
      (l.rows ≤ l.rowsDone + 1 →
        (marked s = true → ∀ p q', t.pen.queue = .line p :: q' → p.rowsDone = 0) ∧
        (l.cutAfter = true → t.pen.feed = 96 ∧ t.pen.owed = some l.saleTag) ∧
        (l.cutAfter = false →
          t.pen.feed = min 255 (s.pen.feed + (s.lli.params.linePitch - 24)) ∧ t.pen.owed = s.pen.owed))) ∧
  (∀ (s : State) (due : Nat), s.pen.state = .feeding due →
    (s.pen.paperMark = true ∨ s.pen.coverMark = true ∨ s.pbu.warning = true) →
    Does .feedStepEnd s [.clock, .printer, .tables] [12, 13] fun t =>
      t.clock = max s.clock due ∧ HaltedFor s t ∧ t.pen = { s.pen with
        feed := s.pen.feed - 1, sinceGlyph := min 255 (s.pen.sinceGlyph + 1), state := t.pen.state, paperMark := false
        coverMark := false
        queue := match marked s, s.pen.queue with
                 | true, .line p :: q => .line { p with rowsDone := 0 } :: q
                 | _, q => q }) ∧
  (∀ (s : State) (due : Nat), s.pen.state = .feeding due → s.pen.paperMark = false → s.pen.coverMark = false →
    s.pbu.warning = false →
    (1 < s.pen.feed →
      Does .feedStepEnd s [.clock, .printer] [] fun t =>
        t.clock = max s.clock due ∧ t.pen = { s.pen with
          feed := s.pen.feed - 1, sinceGlyph := min 255 (s.pen.sinceGlyph + 1), state := .feeding (t.clock + 1000) }) ∧
    (s.pen.feed ≤ 1 → s.pen.owed ≠ none →
      Does .feedStepEnd s [.clock, .printer] [] fun t =>
        t.clock = max s.clock due ∧ t.pen = { s.pen with
          feed := 0, sinceGlyph := min 255 (s.pen.sinceGlyph + 1)
          state := .cutting (t.clock + 800000) !s.pen.home }))

/-- R134, R60: a cutter cycle that has shown AWAY completes when the switch shows HOME: the closing sale of the owed cut's
tag leaves the part as RELEASED, or goes to the stack as SUSPENDED, and SALE reports it; a SETTLED or ABORTED sale that
waits in the open slot then enters the closing slot. The owed cut clears; without the tag of the closing sale the sales
stay. R137, R138: a kept mark or the supply warning then halts the printer. The switch showing AWAY is kept in the cycle.
The cutter timer halts the printer with CUTTER, the cut still owed. The model's choice, not the spec's (log 39):
CUTTER_CYCLE_COMPLETE itself sets the switch to HOME, and it and the change of the switch to HOME are one event. Due times
are those of log 4. -/
def Obligations.CutterCycleReleasesTheClosingSale : Prop :=
  (∀ (s : State) (due : Nat) (o : Sale), s.pen.state = .cutting due true → s.pen.owed = some (some o.tag) →
    s.sru.closing = some o →
    ∀ i : Instr, (i = .cutterCycleComplete ∨ (i = .cutterHomeSwitchChange true ∧ s.pen.home = false)) →
      Does i s [.pins, .sale, .printer, .budget, .till, .weighing, .tables] [2, 9, 12, 13] fun t =>
        t.pen.home = true ∧
        (o.closingKind = some .suspended →
          t.sru.unprinted = ({ s.sru with
            closing := none, stack := { o with state := .suspended, closingKind := none } :: s.sru.stack } :
            Sru).entered.unprinted ∧
          Notified t (.sale o.tag (.live .suspended) o.incomplete)) ∧
        (o.closingKind ≠ some .suspended →
          t.sru.unprinted = ({ s.sru with closing := none } : Sru).entered.unprinted ∧
          Notified t (.sale o.tag .released o.incomplete))) ∧
  (∀ (s : State) (due : Nat), s.pen.state = .cutting due true →
    ∀ i : Instr, (i = .cutterCycleComplete ∨ (i = .cutterHomeSwitchChange true ∧ s.pen.home = false)) →
      Does i s [.pins, .sale, .printer, .budget, .till, .weighing, .tables] [2, 9, 12, 13] fun t =>
        t.pen.home = true ∧ t.pins = { s.pins with cutterHome := true } ∧
        ((∀ o, s.sru.closing = some o → s.pen.owed ≠ some (some o.tag)) → t.sru.unprinted = s.sru.unprinted) ∧
        ((s.pen.paperMark = true ∨ s.pen.coverMark = true ∨ s.pbu.warning = true) →
          HaltedFor s t ∧ t.pen.owed = none ∧ t.pen.feed = s.pen.feed ∧
          (s.pen.paperMark = true ∨ s.pen.coverMark = true →
            ∀ p q, t.pen.queue = .line p :: q → p.rowsDone = 0))) ∧
  (∀ (s : State) (due : Nat) (b : Bool), s.pen.state = .cutting due b → s.pen.home = true →
    Does (.cutterHomeSwitchChange false) s [.pins, .printer] [] fun t =>
      t.pen = { s.pen with home := false, state := .cutting due true } ∧
      t.pins = { s.pins with cutterHome := false }) ∧
  (∀ (s : State) (due : Nat) (b : Bool), s.pen.state = .cutting due b →
    Does .cutterTimeout s ([.clock, .printer] ++ (if s.printTablesWait then [.tables] else [])) [12, 13] fun t =>
      t.clock = max s.clock due ∧ t.pen = { s.pen with state := .halted .cutter } ∧
      Notified t (.printer (.halted .cutter) s.pen.nearEnd))

/-- R136, R137: a paper-out or cover-open change halts a printer in IDLE, HOT_WAIT or HALTED SUPPLY at once, its head line
to be printed again, and else leaves its mark; a sensor that clears changes nothing else. A cool head lets a printer in
HOT_WAIT go on with the line's next row, and a hot head changes nothing at once. R139: a change of the near-end sensor
raises PRINTER with the flag, and the printer's state does not change; paper out then raises PRINTER again where it halts
the printer. -/
def Obligations.PrinterSensorsHaltHoldAndReport : Prop :=
  ((∀ (s : State) (cover : Bool), (if cover then s.pen.coverOpen else s.pen.paperOut) = false →
     let i := if cover then Instr.coverOpenChange true else Instr.paperOutChange true
     ((s.pen.state = .idle ∨ s.pen.state = .hotWait ∨ s.pen.state = .halted .supply) →
       Does i s ([.pins, .printer] ++ (if s.printTablesWait then [.tables] else [])) [12, 13] fun t =>
         let reason := if cover || s.pen.coverMark then HaltReason.coverOpen else .paperOut
         t.pen.state = .halted reason ∧ t.pen.paperMark = false ∧ t.pen.coverMark = false ∧
         (∀ l q, s.pen.queue = .line l :: q → t.pen.queue = .line { l with rowsDone := 0 } :: q) ∧
         t.pen.feed = s.pen.feed ∧ t.pen.owed = s.pen.owed ∧ Notified t (.printer (.halted reason) s.pen.nearEnd)) ∧
     (s.pen.state ≠ .idle → s.pen.state ≠ .hotWait → s.pen.state ≠ .halted .supply →
       Does i s [.pins, .printer] [] fun t =>
         t.pen = (if cover then { s.pen with coverOpen := true, coverMark := true }
                  else { s.pen with paperOut := true, paperMark := true }))) ∧
   (∀ s : State, s.pen.paperOut = true →
     Does (.paperOutChange false) s [.pins, .printer] [] fun t => t.pen = { s.pen with paperOut := false }) ∧
   (∀ s : State, s.pen.coverOpen = true →
     Does (.coverOpenChange false) s [.pins, .printer] [] fun t => t.pen = { s.pen with coverOpen := false }) ∧
   (∀ s : State, s.pen.headHot = false →
     Does (.headHotChange true) s [.pins, .printer] [] fun t => t.pen = { s.pen with headHot := true }) ∧
   (∀ (s : State) (l : PrintLine) (q : List QueueEntry), s.pen.headHot = true → s.pen.state = .hotWait →
     s.pen.queue = .line l :: q → s.pen.paperMark = false → s.pen.coverMark = false → s.pbu.warning = false →
     s.pen.feed = 0 → s.pen.owed = none →
     Does (.headHotChange false) s ([.pins, .printer, .budget] ++ s.grantParts) [2] fun t =>
       t.pen.headHot = false ∧ t.pen.queue = s.pen.queue ∧ ∃ phases stage, t.pen.state = .printing phases stage)) ∧
  ((∀ (s : State) (near : Bool), s.pen.nearEnd ≠ near →
     Does (.paperNearEndChange near) s [.pins, .printer] [12] fun t =>
       t.pen = { s.pen with nearEnd := near } ∧ Notified t (.printer s.pen.state near)) ∧
   (∀ s : State, s.pen.nearEnd = true → s.pen.paperOut = false → s.pen.coverMark = false → s.pen.state = .idle →
     Completes (.paperOutChange true) s fun t => Notified t (.printer (.halted .paperOut) true)))

/-- R140 to R142, R60: PRINT_RESUME clears the marks and runs a cutter cycle for CUTTER, waits on under a supply warning,
and for the paper and the cover goes on: with a feed, an owed cut, a feed or cut entry, the head line's next row or
HOT_WAIT, or to IDLE; it is refused STATE while a sensor shows. A cycle that starts at AWAY has shown AWAY (log 29, the
model's choice). PRINT_DISCARD empties the queue, the feed, the owed cut and the marks, and the composer fills the queue
for the printing sale that results; the closing sale ends incomplete and leaves the slot, a suspended one going to the
stack with its QUEUED lines to be queued again, and a SETTLED or ABORTED sale that waits enters the slot; with the closing
slot empty the open sale's QUEUED lines return and its header may enter again. PRINT_TEXT, PRINT_FEED and PRINT_CUT add one
entry while both slots are empty and the queue has room. Requests are taken at the router of log 6. -/
def Obligations.ResumeDiscardAndPrintingOutsideSales : Prop :=
  let givenUp := fun (r : HaltReason) (s u t : State) (left : Sru) =>
    let emptied : State := { u with
      sru := left.entered
      pen := { u.pen with queue := [], feed := 0, owed := none, paperMark := false, coverMark := false } }
    t.sru.unprinted = left.entered.unprinted ∧ t.pen.paperMark = false ∧ t.pen.coverMark = false ∧
    (s.causeCleared r = true → Notified t (.printer t.pen.state u.pen.nearEnd)) ∧
    (s.causeCleared r = false → t.pen.state = .halted r ∧ t.pen.feed = 0 ∧ t.pen.owed = none ∧
      (s.printTablesWait = false → t.sru = (composerFill emptied).sru ∧ t.pen = (composerFill emptied).pen))
  (∀ (tag : Byte) (s : State),
    (∀ r, s.pen.state = .halted r → r ≠ .supply → s.pen.paperOut = false → s.pen.coverOpen = false →
      (s.pbu.warning = true →
        Serves (.printResume tag) tag s .ok (fun _ => []) [.printer] [12] fun u t =>
          t.pen = { u.pen with paperMark := false, coverMark := false, state := .halted .supply } ∧
          Notified t (.printer (.halted .supply) u.pen.nearEnd)) ∧
      (s.pbu.warning = false → (r = .cutter ∨ (s.pen.feed = 0 ∧ s.pen.owed ≠ none)) →
        Serves (.printResume tag) tag s .ok (fun _ => []) [.printer] [12] fun u t =>
          t.pen = { u.pen with
            paperMark := false, coverMark := false, state := .cutting (u.clock + 800000) !u.pen.home } ∧
          Notified t (.printer t.pen.state u.pen.nearEnd)) ∧
      (s.pbu.warning = false → r ≠ .cutter → 0 < s.pen.feed →
        Serves (.printResume tag) tag s .ok (fun _ => []) [.printer] [12] fun u t =>
          t.pen = { u.pen with paperMark := false, coverMark := false, state := .feeding (u.clock + 1000) } ∧
          Notified t (.printer t.pen.state u.pen.nearEnd)) ∧
      (s.pbu.warning = false → r ≠ .cutter → s.pen.feed = 0 → s.pen.owed = none →
        (s.pen.queue = [] →
          Serves (.printResume tag) tag s .ok (fun _ => [])
            ([.printer] ++ (if s.printTablesWait then [.tables] else [])) [12, 13] fun u t =>
              t.pen = { u.pen with paperMark := false, coverMark := false, state := .idle } ∧
              Notified t (.printer .idle u.pen.nearEnd)) ∧
        (∀ l q, s.pen.queue = .line l :: q → s.pen.headHot = true →
          Serves (.printResume tag) tag s .ok (fun _ => []) [.printer] [12] fun u t =>
            t.pen = { u.pen with paperMark := false, coverMark := false, state := .hotWait } ∧
            Notified t (.printer .hotWait u.pen.nearEnd)) ∧
        (∀ l q, s.pen.queue = .line l :: q → s.pen.headHot = false →
          Serves (.printResume tag) tag s .ok (fun _ => []) ([.printer, .budget] ++ s.grantParts) [2, 12] fun u t =>
            (∃ phases stage, t.pen = { u.pen with
              paperMark := false, coverMark := false, state := .printing phases stage }) ∧
            Notified t (.printer t.pen.state u.pen.nearEnd)) ∧
        (∀ rows q, s.pen.queue = .feed rows :: q → 0 < rows →
          Serves (.printResume tag) tag s .ok (fun _ => []) [.sale, .printer] [12] fun u t =>
            t.pen.state = .feeding (u.clock + 1000) ∧ t.pen.feed = min 255 rows ∧ t.pen.paperMark = false ∧
            t.pen.coverMark = false ∧ t.sru.unprinted = u.sru.unprinted ∧
            Notified t (.printer t.pen.state u.pen.nearEnd)) ∧
        (∀ q, s.pen.queue = .cut :: q →
          Serves (.printResume tag) tag s .ok (fun _ => []) [.sale, .printer] [12] fun u t =>
            t.pen.feed = 96 - u.pen.sinceGlyph ∧ t.pen.owed = some none ∧ t.sru.unprinted = u.sru.unprinted ∧
            t.pen.state = (if u.pen.sinceGlyph < 96 then .feeding (u.clock + 1000)
                           else .cutting (u.clock + 800000) !u.pen.home) ∧
            Notified t (.printer t.pen.state u.pen.nearEnd)))) ∧
    ((s.pen.paperOut = true ∨ s.pen.coverOpen = true ∨ s.pen.state = .halted .supply ∨ ∀ r, s.pen.state ≠ .halted r) →
      Refuses (.printResume tag) tag s .state)) ∧
  (∀ (tag : Byte) (s : State),
    (∀ r, s.pen.state = .halted r →
      (s.sru.openSlot = none → s.sru.closing = none → s.printTablesWait = false →
        Serves (.printDiscard tag) tag s .ok (fun _ => []) [.printer] [12] fun u t =>
          t.pen.queue = [] ∧ t.pen.feed = 0 ∧ t.pen.owed = none ∧ t.pen.paperMark = false ∧ t.pen.coverMark = false ∧
          (s.causeCleared r = true → s.pbu.warning = false → t.pen.state = .idle ∧ Notified t (.printer .idle u.pen.nearEnd)) ∧
          (s.causeCleared r = false → t.pen.state = .halted r)) ∧
      (∀ o, s.sru.closing = some o → o.closingKind ≠ some .suspended →
        Serves (.printDiscard tag) tag s .ok (fun _ => [])
          [.free, .sale, .printer, .budget, .till, .weighing, .tables] [2, 9, 12, 13] fun u t =>
            Notified t (.sale o.tag .released true) ∧ givenUp r s u t { u.sru with closing := none }) ∧
      (∀ o, s.sru.closing = some o → o.closingKind = some .suspended →
        Serves (.printDiscard tag) tag s .ok (fun _ => [])
          [.free, .sale, .printer, .budget, .till, .weighing, .tables] [2, 9, 12, 13] fun u t =>
            let back := { o with
              state := .suspended, closingKind := none, incomplete := true
              nextToQueue := match o.lines.find? fun x => x.print == .queued with
                             | some x => x.number
                             | none => o.nextToQueue
              lines := o.lines.map fun x => if x.print = .queued then { x with print := .notQueued } else x }
            Notified t (.sale o.tag (.live .suspended) true) ∧ t.sru.stack = back :: u.sru.stack ∧
            givenUp r s u t { u.sru with closing := none, stack := back :: u.sru.stack }) ∧
      (∀ o, s.sru.closing = none → s.sru.openSlot = some o → s.printTablesWait = false →
        Serves (.printDiscard tag) tag s .ok (fun _ => []) [.sale, .printer, .budget, .till, .weighing, .tables] [2, 12, 13]
          fun u t =>
            let emptied : State := { u with
              sru := { u.sru with openSlot := some { o with
                nextToQueue := match o.lines.find? fun x => x.print == .queued with
                               | some x => x.number
                               | none => o.nextToQueue
                lines := o.lines.map fun x => if x.print = .queued then { x with print := .notQueued } else x } }
              pen := { u.pen with
                queue := [], feed := 0, owed := none, paperMark := false, coverMark := false
                context := { u.pen.context with header := false } } }
            t.sru.unprinted = u.sru.unprinted ∧ t.pen.paperMark = false ∧ t.pen.coverMark = false ∧
            (s.causeCleared r = false → t.sru = (composerFill emptied).sru ∧ t.pen = (composerFill emptied).pen))) ∧
    ((∀ r, s.pen.state ≠ .halted r) → Refuses (.printDiscard tag) tag s .state)) ∧
  (∀ (i : Instr) (tag : Byte) (e : QueueEntry) (s : State),
    ((∃ text double cut, text.length ≤ 32 ∧ i = .printText tag text double cut ∧
        e = .line ⟨.text, none, none, text ++ List.replicate (32 - text.length) 32, double, cut, 0⟩) ∨
     (∃ rows, 1 ≤ rows ∧ rows ≤ 255 ∧ i = .printFeed tag rows ∧ e = .feed rows) ∨ (i = .printCut tag ∧ e = .cut)) →
    (s.sru.openSlot = none → s.sru.closing = none → s.pen.queue.length < 48 → s.pen.state ≠ .idle →
      Serves i tag s .ok (fun _ => []) [.printer] [] fun u t => t.pen = { u.pen with queue := u.pen.queue ++ [e] }) ∧
    (s.sru.openSlot = none → s.sru.closing = none → s.pen.queue.length < 48 → s.pen.state = .idle →
      Serves i tag s .ok (fun _ => []) s.printParts s.printKinds fun _ _ => True) ∧
    ((s.sru.openSlot ≠ none ∨ s.sru.closing ≠ none) → Refuses i tag s .state) ∧
    (s.sru.openSlot = none → s.sru.closing = none → 48 ≤ s.pen.queue.length → Refuses i tag s .busy)) ∧
  (∀ (tag : Byte) (text : List Byte) (double cut : Bool) (s : State), s.sru.openSlot = none → s.sru.closing = none →
    32 < text.length → Refuses (.printText tag text double cut) tag s .length) ∧
  (∀ (tag : Byte) (rows : Nat) (s : State), s.sru.openSlot = none → s.sru.closing = none → (rows < 1 ∨ 255 < rows) →
    Refuses (.printFeed tag rows) tag s .range)

/-! ## The pulse budget -/

/-- R146, R151, R148, R109, R138, R56: the oldest grant leaves 20 ms after its start, and then a waiting solenoid request
is granted when it fits, before any phase; else nothing more changes when none waits. The warning coming on raises SUPPLY,
takes a drawer out of WAIT_GRANT and halts an IDLE printer; its clearing raises SUPPLY, lets a waiting sealed write start
and lets a printer HALTED by it go on. Due times are those of log 4. -/
def Obligations.GrantsExpireAndTheSupplyWarningHolds : Prop :=
  (∀ (s : State) (g : Grant) (gs : List Grant), s.pbu.grants = g :: gs →
    (s.pbu.solenoidReq = none → s.pbu.phaseReq = none →
      Does .grantExpiry s [.clock, .budget] [] fun t =>
        t.clock = max s.clock (g.start + 20000) ∧ t.pbu = { s.pbu with grants := gs }) ∧
    (∀ x, s.pbu.solenoidReq = some x → s.pbu.arbiter = none → s.pbu.pulse = none → grantSum gs + 40 ≤ 64 →
      Does .grantExpiry s [.clock, .budget, .till, .weighing] [2] fun t =>
        t.clock = max s.clock (g.start + 20000) ∧ t.pbu = { s.pbu with
          grants := gs ++ [⟨.solenoid, t.clock, 40⟩], pulse := some t.clock, solenoidReq := none } ∧
        t.tlc = { s.tlc with
          retries := s.tlc.retries + 1, state := .pulsing (t.clock + s.lli.params.drawerPulse * 1000) } ∧
        t.wch.window = .opened none) ∧
    (∀ x, s.pbu.solenoidReq = some x → 64 < grantSum gs + 40 → s.pbu.arbiter = none →
      (∀ y, s.pbu.phaseReq = some y → y.first = true) →
      Does .grantExpiry s [.clock, .budget] [] fun t => t.pbu = { s.pbu with grants := gs })) ∧
  (∀ s : State, s.pbu.warning = false →
    Does (.supplyWarningChange true) s ([.pins, .budget, .printer] ++ s.withdrawParts ++
        (if s.printTablesWait then [.tables] else [])) [10, 12, 13] fun t =>
      t.pbu.warning = true ∧ Notified t (.supply true) ∧
      (s.tlc.state = .waitGrant → t.tlc = { s.tlc with state := .closed } ∧ t.pbu.solenoidReq = none) ∧
      ((s.pen.state = .idle ∨ s.pen.state = .hotWait) →
        t.pen.state = .halted .supply ∧ Notified t (.printer (.halted .supply) s.pen.nearEnd))) ∧
  (∀ s : State, s.pbu.warning = true →
    Does (.supplyWarningChange false) s [.pins, .budget, .printer, .till, .weighing, .store, .sale, .tables] [2, 10, 12, 13]
      fun t =>
        t.pbu.warning = false ∧ Notified t (.supply false) ∧ t.sru.unprinted = s.sru.unprinted ∧
        (s.sst.pendingTotals = true → s.sst.inFlight = none →
          t.sst = { s.sst with
            pendingTotals := false
            inFlight := some ⟨.totals s.sst.image.saleCounter s.sst.image.grandTotal, s.clock + 50000⟩ }) ∧
        (s.sst.pendingTotals = false → t.sst = s.sst) ∧
        (s.pen.state = .halted .supply → s.pen.paperMark = false → s.pen.coverMark = false →
          s.pen.queue.length ≤ 48 → ∀ r, t.pen.state ≠ .halted r))

/-! ## The accessory port -/

/-- R157 to R162, R167: a round visits the first unit that is not skipped, with a frame of its own in the queue or else a
poll, an ACC_DOWN frame of tag 0 and no payload; a unit left for the next round is visited from it on, and not before; an
answer makes its unit PRESENT, and a frame of a unit that is no scanner goes up unchanged unless it is empty; a miss makes
an UNKNOWN unit ABSENT and counts against a PRESENT one, the third making it ABSENT, its frames dropped. R169, R170: the
mirror timer runs on every 200 ms; while the weight is showing, or once after it was, the downstream queue gets one mirror
frame for the DISPLAY unit with the text of that moment, in the place of one that stands there. Due times are those of log
4. -/
def Obligations.RoundsPresenceAndMirror : Prop :=
  ((∀ s : State, s.acp.visit = none →
     Does .roundStart s [.clock, .accessory] [] fun t =>
       t.clock = max s.clock s.acp.roundDue ∧ t.acp.roundDue = t.clock + 20000 ∧ t.acp.units = s.acp.units ∧
       t.acp.later = [] ∧
       (let skipped := fun m => (s.acp.units.get m).role = .none ∨
          ((s.acp.units.get m).role = .scanner ∧ s.acp.held ≠ none) ∨ 24 ≤ s.lli.accUps.length
        (∀ n ∈ [1, 2, 3, 4], ¬skipped n → (∀ m ∈ [1, 2, 3, 4], m < n → skipped m) →
          ((∃ f ∈ s.acp.queue, f.unit = n) → ∃ f ∈ s.acp.queue, f.unit = n ∧ t.acp.visit = some f) ∧
          ((∀ f ∈ s.acp.queue, f.unit ≠ n) → ∃ f : DownFrame, t.acp.visit = some f ∧ t.acp.queue = s.acp.queue ∧
            f.bytes = [0xA5, 3, BitVec.ofNat 8 n, 4, 0] ++
              natBytes 2 (crc16 [3, BitVec.ofNat 8 n, 4, 0]).toNat)) ∧
        ((∀ m ∈ [1, 2, 3, 4], skipped m) → t.acp.visit = none ∧ t.acp.queue = s.acp.queue))) ∧
   (∀ (s : State) (v : DownFrame) (tag : Byte) (payload : List Byte), s.acp.visit = some v → 1 ≤ v.unit → v.unit ≤ 4 →
     payload.length ≤ 250 → (s.acp.units.get v.unit).role ≠ .scanner →
     Does (.accessoryAnswer (frameBytes v.unit 5 tag payload)) s [.accFrames, .accessory] [14] fun t =>
       t.lli.upFrames = s.lli.upFrames ++ (if payload = [] then [] else [⟨v.unit, tag, payload⟩]) ∧
       t.acp.units = s.acp.units.set v.unit { s.acp.units.get v.unit with presence := .present, misses := 0 } ∧
       (∀ f, t.acp.visit = some f → v.unit < f.unit ∧ f.unit ∉ s.acp.later) ∧
       ((s.acp.units.get v.unit).presence ≠ .present →
         ∃ b, Notified t (.accessory .presence v.unit .present none none b))) ∧
   (∀ (s : State) (v : DownFrame), s.acp.visit = some v → 1 ≤ v.unit → v.unit ≤ 4 →
     (Does .answerTimeout s [.accessory] [14] fun t =>
       ∀ f, t.acp.visit = some f → v.unit < f.unit ∧ f.unit ∉ s.acp.later) ∧
     ((s.acp.units.get v.unit).presence = .present → (s.acp.units.get v.unit).misses < 2 →
       Does .answerTimeout s [.accessory] [] fun t =>
         t.acp.units = s.acp.units.set v.unit
           { s.acp.units.get v.unit with misses := (s.acp.units.get v.unit).misses + 1 }) ∧
     (((s.acp.units.get v.unit).presence = .unknown ∨
         ((s.acp.units.get v.unit).presence = .present ∧ 2 ≤ (s.acp.units.get v.unit).misses)) →
       Does .answerTimeout s [.accessory] [14] fun t =>
         t.acp.units = s.acp.units.set v.unit { s.acp.units.get v.unit with presence := .absent, misses := 0 } ∧
         (∀ f ∈ t.acp.queue, f.unit ≠ v.unit) ∧
         ∃ b, Notified t (.accessory .discard v.unit .absent none none b)) ∧
     ((s.acp.units.get v.unit).presence = .absent →
       Does .answerTimeout s [.accessory] [] fun t => t.acp.units = s.acp.units))) ∧
  (∀ (s : State) (due : Nat), s.acp.mirrorDue = some due →
     Does .mirrorTimer s [.clock, .accessory] [] fun t =>
       t.clock = max s.clock due ∧ t.acp.mirrorDue = some (due + 200000) ∧ t.acp.units = s.acp.units ∧
       t.acp.lastSent = s.showing ∧
       (s.showing = false → s.acp.lastSent = false → t.acp.queue = s.acp.queue) ∧
       (∀ n, (s.showing = true ∨ s.acp.lastSent = true) → s.acp.units.holder .display = some n →
         ((∀ f ∈ s.acp.queue, f.mirror = false) → s.acp.queue.length < 16 →
           t.acp.queue = ⟨n, 0, s.mirrorText, true⟩ :: s.acp.queue) ∧
         ((∃ f ∈ s.acp.queue, f.mirror = true) →
           t.acp.queue = s.acp.queue.map fun f => if f.mirror then ⟨n, 0, s.mirrorText, true⟩ else f)))

/-- R162 to R168: a read of the SCANNER in a READY lane acts by the code table: BLOCK counts it, WEIGH starts a capture of
the PLU read, is held behind one that waits, or goes up where no sale is in OPEN or the capture is refused RANGE, STATE or
NOT_WEIGHED, EMBEDDED posts a line of the PLU and price read, refers one of a PLU missing from the table, or goes up at a
LIMIT, and any other read goes up unchanged; so does an answer of another unit, one in an UNCONFIGURED lane, and one that is
no read, while an empty one goes nowhere. R163, R164: the action is that of the matching entry with the longest prefix, a
fixed length before any; a check digit that does not hold blocks the read; a field past the last digit, or a PLU of 0, makes
it go up. So the read acts at the ACCESSORY_ANSWER whose bytes carry it. The model's choice, not the spec's: a presence that
the answer changes is raised before what the read raises (log 55). -/
def Obligations.ScannerReadsActByTheCodeTable : Prop :=
  (∀ (f : AccFrame) (s : State) (ds : List Byte), (s.acp.units.get f.unit).role = .scanner → s.lli.lane = .ready →
    readDigits f.payload = some ds →
    let up := { s with lli := { s.lli with accUps := s.lli.accUps ++ [f] } }
    (codeAction s.tbs.code.active ds = .forward → routeUp f s = up) ∧
    (∀ r, codeAction s.tbs.code.active ds = .block r →
      (routeUp f s).acp = { s.acp with blocked := min 65535 (s.acp.blocked + 1) } ∧
      (routeUp f s).lli.accUps = s.lli.accUps ∧
      .accessory .block f.unit (s.acp.units.get f.unit).presence (some r) none (min 65535 (s.acp.blocked + 1)) ∈
        (routeUp f s).lli.notices) ∧
    (∀ p, codeAction s.tbs.code.active ds = .weigh p →
      (s.openSale? = none → routeUp f s = up) ∧
      (∀ o, s.openSale? = some o → 1 ≤ p → p ≤ 999999 → s.wch.capture ≠ none →
        routeUp f s = { s with acp := { s.acp with held := some ⟨f, p⟩ } }) ∧
      (∀ o, s.openSale? = some o → 1 ≤ p → p ≤ 999999 → s.wch.capture = none → s.wch.state = .running →
        (∀ e, s.tbs.findItem p = some e → e.basis ≠ .each) →
        (routeUp f s).wch.capture = some ⟨p, .scan, s.tbs.findItem p, s.tbs.item.generation,
          s.clock + s.lli.params.captureTimeout * 1000⟩ ∧ (routeUp f s).lli.accUps = s.lli.accUps)) ∧
    (∀ p a, codeAction s.tbs.code.active ds = .embedded p a →
      (s.openSale? = none → routeUp f s = up) ∧
      (∀ o e, s.openSale? = some o → s.tbs.findItem p = some e → a ≤ 99999999 → o.lines.length < 200 →
        0 ≤ o.itemTotal + a → o.itemTotal + a ≤ 999999999 →
        (routeUp f s).sru.unprinted = ({ s.sru with openSlot := some { o with lines := o.lines ++
          [{ number := o.lines.length + 1, kind := .embedded, state := .posted, plu := some p, text := e.text,
             quantity := none, mass := none, unitPrice := none, basis := none, amount := a, voided := none,
             card := none, print := .notQueued }] } } : Sru).unprinted ∧
        (routeUp f s).lli.accUps = s.lli.accUps))) ∧
  (∀ (table : List CodeEntry) (ds : List Byte), ds ≠ [] → (∀ d ∈ ds, 48 ≤ d.toNat ∧ d.toNat ≤ 57) →
    ((∀ e ∈ table, ¬(e.lead <+: ds ∧ (e.total = 0 ∨ e.total = ds.length))) → codeAction table ds = .forward) ∧
    (∀ e, Chosen table ds e →
      (e.check = true → ¬CheckDigitHolds ds → codeAction table ds = .block .check) ∧
      ((e.check = false ∨ CheckDigitHolds ds) →
        (e.action = .forward → codeAction table ds = .forward) ∧
        (e.action = .block → codeAction table ds = .block .table) ∧
        (∀ a n, e.plu = some (a, n) → 1 ≤ a → 1 ≤ n →
          (e.action = .weigh →
            codeAction table ds = (if ds.length < a + n - 1 ∨ decimalField ds a n = 0 then .forward
                                   else .weigh (decimalField ds a n))) ∧
          (∀ b m, e.action = .embedded → e.price = some (b, m) → 1 ≤ b → 1 ≤ m →
            codeAction table ds =
              (if ds.length < a + n - 1 ∨ ds.length < b + m - 1 ∨ decimalField ds a n = 0 then .forward
               else .embedded (decimalField ds a n) (decimalField ds b m))))))) ∧
  (∀ (s : State) (v : DownFrame) (tag symbology : Byte) (ds : List Byte), s.acp.visit = some v → 1 ≤ v.unit → v.unit ≤ 4 →
    (s.acp.units.get v.unit).role = .scanner → s.lli.lane = .ready → 1 ≤ ds.length → ds.length ≤ 20 →
    (∀ d ∈ ds, 48 ≤ d.toNat ∧ d.toNat ≤ 57) →
    let arrives := Instr.accessoryAnswer (frameBytes v.unit 5 tag (symbology :: ds))
    let read : AccFrame := ⟨v.unit, tag, symbology :: ds⟩
    let action := codeAction s.tbs.code.active ds
    ((action = .forward ∨ (s.openSale? = none ∧ ((∃ p, action = .weigh p) ∨ ∃ p a, action = .embedded p a)) ∨
        (∃ p, action = .weigh p ∧ (p < 1 ∨ 999999 < p ∨ (s.wch.capture = none ∧
          (s.wch.state ≠ .running ∨ ∃ e, s.tbs.findItem p = some e ∧ e.basis = .each)))) ∨
        (∃ p a o, action = .embedded p a ∧ s.openSale? = some o ∧ (99999999 < a ∨ 200 ≤ o.lines.length ∨
          (s.tbs.findItem p = none ∧ 4 ≤ o.referrals.length) ∨
          (s.tbs.findItem p ≠ none ∧ (o.itemTotal + a < 0 ∨ 999999999 < o.itemTotal + a))))) →
      Does arrives s [.accFrames, .accessory] [14] fun t => t.lli.upFrames = s.lli.upFrames ++ [read]) ∧
    (∀ r, action = .block r →
      Does arrives s [.accessory] [14] fun t =>
        Notified t (.accessory .block v.unit .present (some r) none (min 65535 (s.acp.blocked + 1)))) ∧
    (∀ p o, action = .weigh p → s.openSale? = some o → 1 ≤ p → p ≤ 999999 →
      (s.wch.capture ≠ none → Does arrives s [.accessory] [14] fun t => t.acp.held = some ⟨read, p⟩) ∧
      (s.wch.capture = none → s.wch.state = .running → (∀ e, s.tbs.findItem p = some e → e.basis ≠ .each) →
        Does arrives s [.weighing, .accessory] [2, 14] fun t =>
          t.wch.capture = some ⟨p, .scan, s.tbs.findItem p, s.tbs.item.generation,
            s.clock + s.lli.params.captureTimeout * 1000⟩ ∧
          Notified t (.accessory .scanConsumed v.unit .present none none s.acp.blocked))) ∧
    (∀ p a o e, action = .embedded p a → s.openSale? = some o → s.tbs.findItem p = some e → a ≤ 99999999 →
      o.lines.length < 200 → 0 ≤ o.itemTotal + a → o.itemTotal + a ≤ 999999999 →
      Does arrives s ([.accessory, .sale] ++ s.printParts) (14 :: s.printKinds) fun t =>
        t.sru.unprinted = ({ s.sru with openSlot := some { o with lines := o.lines ++
          [{ number := o.lines.length + 1, kind := .embedded, state := .posted, plu := some p, text := e.text,
             quantity := none, mass := none, unitPrice := none, basis := none, amount := a, voided := none,
             card := none, print := .notQueued }] } } : Sru).unprinted ∧
        Notified t (.accessory .scanConsumed v.unit .present none (some (o.lines.length + 1)) s.acp.blocked)) ∧
    (∀ p a o, action = .embedded p a → s.openSale? = some o → s.tbs.findItem p = none → a ≤ 99999999 →
      o.lines.length < 200 → o.referrals.length < 4 →
      Does arrives s ([.accessory, .sale] ++ s.printParts) ([7, 14] ++ s.printKinds) fun t =>
        let number := o.lines.length + 1
        t.sru.unprinted = ({ s.sru with openSlot := some { o with
          lines := o.lines ++ [{ number := number, kind := .embedded, state := .referred, plu := some p, text := []
                                 quantity := none, mass := none, unitPrice := none, basis := none, amount := 0
                                 voided := none, card := none, print := .notQueued }]
          referrals := o.referrals ++ [⟨number, .missing, s.clock + s.lli.params.referralTimeout * 1000000⟩] } } :
          Sru).unprinted ∧
        Notified t (.referral (o.outstanding ++ [number])) ∧
        Notified t (.accessory .scanConsumed v.unit .present none (some number) s.acp.blocked))) ∧
  (∀ (s : State) (v : DownFrame) (tag : Byte) (payload : List Byte), s.acp.visit = some v → 1 ≤ v.unit → v.unit ≤ 4 →
    (s.acp.units.get v.unit).role ≠ .none → payload.length ≤ 250 →
    let arrives := Instr.accessoryAnswer (frameBytes v.unit 5 tag payload)
    (payload = [] → Does arrives s [.accessory] [14] fun _ => True) ∧
    (payload ≠ [] →
      ((s.acp.units.get v.unit).role ≠ .scanner ∨ s.lli.lane = .unconfigured ∨
        ¬(2 ≤ payload.length ∧ payload.length ≤ 21 ∧ ∀ d ∈ payload.tail, 48 ≤ d.toNat ∧ d.toNat ≤ 57)) →
      Does arrives s [.accFrames, .accessory] [14] fun t =>
        t.lli.upFrames = s.lli.upFrames ++ [⟨v.unit, tag, payload⟩]))

/-! ## Loaded tables -/

/-- R177, R180: TABLE_BEGIN of a known table with no session open and its bank not PENDING opens the session on an empty
LOADING bank; an unknown name is refused RANGE, an open session or a PENDING bank BUSY. The idle timer aborts the session
with IDLE. R176, R178: a record of the card format table with its figures in range and its track not yet in the bank enters
the load bank, and the count is answered; one out of range is refused RANGE and aborts the session as INVALID at its
position; one of another size is refused LENGTH, and the session stays open; with no session it is refused STATE. The
model's choices, not the spec's: the count in the response takes 2 bytes (log 65), and the record's fields stand in the
order of log 27. Due times are those of log 4, and requests are taken at the router of log 6. -/
def Obligations.TableSessionsTakeCheckedRecords : Prop :=
  ((∀ (tag : Byte) (name : List Byte) (s : State),
     (tableNamed name = none → Refuses (.tableBegin tag name) tag s .range) ∧
     (∀ n, tableNamed name = some n →
       (s.tbs.session = none → s.tbs.loadState n ≠ .pending →
         Serves (.tableBegin tag name) tag s .ok (fun _ => []) [.tables] [] fun u t =>
           t.tbs.session = some ⟨n, 0, u.clock + 2000000⟩ ∧ t.tbs.loadState n = .loading ∧
           (t.tbs.look n fun _ b => b.load.length) = 0 ∧ u.sameActive t ∧
           (∀ m, m ≠ n → t.tbs.loadState m = u.tbs.loadState m)) ∧
       ((s.tbs.session ≠ none ∨ s.tbs.loadState n = .pending) → Refuses (.tableBegin tag name) tag s .busy))) ∧
   (∀ (s : State) (x : Session), s.tbs.session = some x →
     Does .tableIdleTimeout s [.clock, .tables] [13] fun t =>
       t.clock = max s.clock x.due ∧ t.tbs.session = none ∧ t.tbs.loadState x.table = .empty ∧
       (t.tbs.look x.table fun _ b => b.load.length) = 0 ∧ s.sameActive t ∧
       Notified t (.table x.table (s.tbs.generation x.table) .idle))) ∧
  (∀ (tag : Byte) (s : State),
     (s.tbs.session = none → ∀ entry, Refuses (.tableRecord tag entry) tag s .state) ∧
     (∀ x, s.tbs.session = some x → x.table = .cardFormat →
       (∀ (k : Track) (w a b c m : Nat), 4 ≤ w → w ≤ 6 → a < 2 ^ w → b < 2 ^ w → c < 2 ^ w → a ≠ b → a ≠ c → b ≠ c →
         2 ≤ m → m ≤ (if k = .a then 79 else 40) → (∀ e ∈ s.tbs.cardFormat.load, e.track ≠ k) →
         Serves (.tableRecord tag ([if k = .a then 0 else 1] ++ [w, a, b, c, m].map (BitVec.ofNat 8))) tag s .ok
           (fun _ => [.int 2 (x.count + 1 : Nat)]) [.tables] [] fun u t =>
             t.tbs = { u.tbs with
               cardFormat := { u.tbs.cardFormat with load := u.tbs.cardFormat.load ++ [⟨k, w, a, b, c, m⟩] }
               session := some ⟨.cardFormat, x.count + 1, u.clock + 2000000⟩ }) ∧
       (∀ k w a b c m : Byte, 1 < k.toNat ∨ w.toNat < 4 ∨ 6 < w.toNat →
         Serves (.tableRecord tag [k, w, a, b, c, m]) tag s (.refused .range) (fun _ => []) [.tables] [13] fun u t =>
           t.tbs.session = none ∧ t.tbs.loadState .cardFormat = .empty ∧ t.tbs.cardFormat.load = [] ∧ u.sameActive t ∧
           Notified t (.table .cardFormat u.tbs.cardFormat.generation (.invalid .range (x.count + 1)))) ∧
       (∀ entry : List Byte, entry.length ≠ 6 → Refuses (.tableRecord tag entry) tag s .length)))

/-- R179, R182: TABLE_END with the session's count makes the bank PENDING, and active at once with the next generation and
TABLE where its condition holds; another count is refused COUNT and aborts the session. Requests are taken at the router of
log 6. -/
def Obligations.TableEndSwapsOrWaits : Prop :=
  ∀ (tag : Byte) (count : Nat) (s : State) (x : Session), s.tbs.session = some x → count ≤ 1024 →
    (count = x.count → s.swapReady x.table = true →
      Serves (.tableEnd tag count) tag s .ok
        (fun u => [.flag true, .int 2 (if u.tbs.generation x.table = 65535 then 1 else u.tbs.generation x.table + 1 : Nat)])
        [.tables] [13] fun u t =>
          t.tbs.session = none ∧ t.tbs.loadState x.table = .empty ∧
          t.tbs.generation x.table = (if u.tbs.generation x.table = 65535 then 1 else u.tbs.generation x.table + 1) ∧
          (t.tbs.look x.table fun _ b => b.active.length) = (u.tbs.look x.table fun _ b => b.load.length) ∧
          (x.table = .code → t.tbs.code.active = u.tbs.code.load) ∧
          (x.table = .item → t.tbs.item.active.Pairwise (fun a b => a.plu ≤ b.plu) ∧
            ∀ e, e ∈ t.tbs.item.active ↔ e ∈ u.tbs.item.load) ∧
          Notified t (.table x.table (t.tbs.generation x.table) .swapped)) ∧
    (count = x.count → s.swapReady x.table = false →
      Serves (.tableEnd tag count) tag s .ok (fun u => [.flag false, .int 2 (u.tbs.generation x.table : Nat)]) [.tables] []
        fun u t => t.tbs.session = none ∧ t.tbs.loadState x.table = .pending ∧ u.sameActive t) ∧
    (count ≠ x.count →
      Serves (.tableEnd tag count) tag s (.refused .count) (fun _ => []) [.tables] [13] fun u t =>
        t.tbs.session = none ∧ t.tbs.loadState x.table = .empty ∧ u.sameActive t ∧
        Notified t (.table x.table (u.tbs.generation x.table) .count))

/-- R181: TABLE_CANCEL gives up a LOADING load with its session, or a PENDING one, raises TABLE with CANCELLED, and is
refused STATE for an EMPTY bank and RANGE for an unknown name; the active bank and the generation stay. Requests are taken
at the router of log 6. -/
def Obligations.TableCancelGivesUpTheLoad : Prop :=
  ∀ (tag : Byte) (name : List Byte) (s : State),
    (tableNamed name = none → Refuses (.tableCancel tag name) tag s .range) ∧
    (∀ n, tableNamed name = some n →
      (s.tbs.loadState n = .loading → (∃ x, s.tbs.session = some x ∧ x.table = n) →
        Serves (.tableCancel tag name) tag s .ok (fun _ => []) [.tables] [13] fun u t =>
          t.tbs.loadState n = .empty ∧ (t.tbs.look n fun _ b => b.load.length) = 0 ∧ t.tbs.session = none ∧
          u.sameActive t ∧ Notified t (.table n (u.tbs.generation n) .cancelled)) ∧
      (s.tbs.loadState n = .pending →
        Serves (.tableCancel tag name) tag s .ok (fun _ => []) [.tables] [13] fun u t =>
          t.tbs.loadState n = .empty ∧ (t.tbs.look n fun _ b => b.load.length) = 0 ∧ t.tbs.session = u.tbs.session ∧
          u.sameActive t ∧ Notified t (.table n (u.tbs.generation n) .cancelled)) ∧
      (s.tbs.loadState n = .empty → Refuses (.tableCancel tag name) tag s .state))

/-- R184: TABLE_READ returns the entry of the active bank at an index from 1, with every field and the generation; index 0,
or one above the entries held, is refused NOT_FOUND, an unknown name RANGE; it changes nothing, in any lane state and bank
state. The model's choices, not the spec's: an unknown name is refused RANGE at index 0 as well (log 56), and an integer
whose range the rules leave open has the width of log 65. Requests are taken at the router of log 6. -/
def Obligations.TableReadReturnsTheActiveEntry : Prop :=
  ∀ (tag : Byte) (name : List Byte) (index : Nat) (s : State),
    (tableNamed name = none → Refuses (.tableRead tag name index) tag s .range) ∧
    (∀ n, tableNamed name = some n →
      ((index = 0 ∨ (s.tbs.look n fun _ b => b.active.length) < index) →
        Refuses (.tableRead tag name index) tag s .notFound)) ∧
    (∀ k, index = k + 1 →
      (∀ e, tableNamed name = some .item → s.tbs.item.active[k]? = some e →
        Serves (.tableRead tag name index) tag s .ok (fun u =>
          [.int 4 e.plu, .text e.text, .enum e.basis.code, .int 4 e.unitPrice] ++
          optFields e.presetTare (fun p => [.int 2 p]) ++ [.flag e.refer, .int 2 u.tbs.item.generation]) [] []
          fun _ _ => True) ∧
      (∀ e, tableNamed name = some .code → s.tbs.code.active[k]? = some e →
        Serves (.tableRead tag name index) tag s .ok (fun u =>
          [.text e.lead, .int 1 e.total, .flag e.check, .enum e.action.code] ++
          optFields e.plu (fun f => [.int 1 f.1, .int 1 f.2]) ++ optFields e.price (fun f => [.int 1 f.1, .int 1 f.2]) ++
          [.int 2 u.tbs.code.generation]) [] [] fun _ _ => True) ∧
      (∀ e, tableNamed name = some .font → s.tbs.font.active[k]? = some e →
        Serves (.tableRead tag name index) tag s .ok (fun u =>
          (.int 1 e.code :: e.rows.map fun r => .int 2 r.toNat) ++ [.int 2 u.tbs.font.generation]) [] []
          fun _ _ => True) ∧
      (∀ e, tableNamed name = some .cardFormat → s.tbs.cardFormat.active[k]? = some e →
        Serves (.tableRead tag name index) tag s .ok (fun u =>
          [.enum (trackCode e.track), .int 1 e.width, .int 1 e.start, .int 1 e.stop, .int 1 e.separator,
           .int 1 e.maxChars, .int 2 u.tbs.cardFormat.generation]) [] [] fun _ _ => True) ∧
      (∀ e, tableNamed name = some .headerTrailer → s.tbs.headerTrailer.active[k]? = some e →
        Serves (.tableRead tag name index) tag s .ok (fun u =>
          [.enum e.trailer.toNat, .int 1 e.position, .text e.text, .flag e.double,
           .int 2 u.tbs.headerTrailer.generation]) [] [] fun _ _ => True))

/-! ## Reads -/

/-- R27, R53, R86, R87, R102, R118, R143, R155, R171, R185, R197, R198: each read is answered OK with the state of that
moment and changes nothing; LANE_STATUS clears the link error flag that it reports; a parameter or a line that is not there
is refused NOT_FOUND. The model's choices, not the spec's: the request itself counts in the request queue (log 15), times
are in whole milliseconds rounded down (log 16), codes are numbered as in log 17, presence bytes, flags and fixed groups
are those of logs 47 and 58 to 60, F stands among all the figures (log 62), a byte that names no place has no sale (log
63), and the widths are those of log 65. Requests are taken at the router of log 6. -/
def Obligations.ReadsReportTheStateAndChangeNothing : Prop :=
  ∀ (tag : Byte) (s : State),
    let left : Nat → Nat → Field := fun due clock => .int 4 ((due - clock) / 1000 : Nat)
    let optional : (α : Type) → Option α → (α → List Field) → List Field := fun _ o f =>
      match o with
      | some a => .flag true :: f a
      | none => [.flag false]
    let tagged : Option Nat → List Field := fun o => optional _ o fun n => [.int 2 n]
    let printer : PrinterState → List Field := fun st =>
      match st with
      | .halted r => [.enum 5, .flag true, .enum r.code]
      | x => [.enum x.code, .flag false]
    let summary : Sale → Nat → List Field := fun o clock =>
      [.int 2 o.tag, .enum o.state.code, .flag o.resumed, .int 4 o.itemTotal, .int 4 o.tenderTotal, .int 4 o.balance,
       .int 4 o.changeDue, .int 1 o.lines.length, .int 1 o.nextToQueue, .int 2 o.itemGen, .flag o.incomplete] ++
      optional _ o.saleNumber (fun n => [.int 4 n]) ++
      [.int 1 o.referrals.length] ++
      (o.referrals.flatMap fun r => [.int 1 r.line, .enum r.reason.code, left r.due clock]) ++
      optional _ o.cardTender (fun c => [.int 4 c.amount, .int 2 c.serial, left c.due clock])
    (Serves (.weighRead tag) tag s .ok (fun u =>
      [.enum u.wch.state.code] ++ optFields u.wch.faultCause (fun c => [.enum c.code]) ++ [bitsField u.wch.bits.toList] ++
      u.figureFields ++ u.captureFields) [] [] fun _ _ => True) ∧
    (∀ c, s.wch.state = .fault → s.wch.faultCause = some c → s.wch.capture = none →
      Serves (.weighRead tag) tag s .ok (fun u =>
        [.enum 5, .flag true, .enum c.code, bitsField u.wch.bits.toList, .flag false, .flag false, .flag false, .flag false,
         .flag false, .flag false, .flag false]) [] [] fun _ _ => True) ∧
    (∀ up g, s.wch.state = .running → s.wch.faultCause = none → s.wch.last = some up → up.figures = some g →
      s.wch.ind.overload = false → s.wch.ind.underload = false →
      Serves (.weighRead tag) tag s .ok (fun u =>
        [.enum 2, .flag false, bitsField u.wch.bits.toList, .flag true, .int 4 up.f, .flag true, .int 4 g.gross,
         .flag true, .enum g.tare.code] ++
        (if g.tare = .none then [.flag false] else [.flag true, .int 4 g.tare.value]) ++
        [.flag true, .int 4 g.net, .flag true, .int 4 g.certified, .flag true, .int 1 g.interval] ++
        optional _ u.wch.capture (fun c => [.int 4 c.plu, .enum c.source.code, left c.due u.clock])) [] []
        fun _ _ => True) ∧
    (Serves (.storeRead tag) tag s .ok (fun u =>
      [.enum u.sst.state.code, .int 4 u.sst.image.record.zc, .int 4 u.sst.image.record.sc, .int 2 u.sst.image.record.mcal,
       .int 2 u.sst.image.record.max1, .int 1 u.sst.image.record.e1, .int 2 u.sst.image.record.max,
       .int 1 u.sst.image.record.e2, .int 2 u.sst.image.calCounter] ++
      (if u.sst.state = .damaged then [.flag false]
       else [.flag true, .int 4 u.sst.image.saleCounter, .int 8 u.sst.image.grandTotal]) ++
      optional _ u.sst.inFlight (fun w => [.enum w.data.code]) ++
      (if u.sst.pendingTotals then [.flag true, .enum 1] else [.flag false]) ++
      [.flag (u.sst.pendingTotals && u.pbu.warning), .enum (if u.wch.calSwitchClosed then 1 else 0)] ++
      optional _ (if u.wch.state = .cal then u.wch.cal else none) (fun c =>
        [match c.run with
         | none => .enum 0
         | some ⟨.zero, _, _, _, _⟩ => .enum 1
         | some ⟨.span _, _, _, _, _⟩ => .enum 2] ++
        optional _ c.zero (fun z => [.int 4 z]) ++ optional _ c.span (fun p => [.int 4 p.1, .int 2 p.2]) ++
        optional _ c.ranges (fun g => [.int 2 g.max1, .int 1 g.e1, .int 2 g.max, .int 1 g.e2]))) [] []
      fun _ _ => True) ∧
    (Serves (.saleRead tag) tag s .ok (fun u =>
      [.int 2 u.sru.nextTag] ++ optional _ u.sru.openSlot (fun o => summary o u.clock) ++
      optional _ u.sru.closing (fun o => summary o u.clock ++
        match o.closingKind with
        | some k => [.enum k.code]
        | none => []) ++
      (.int 1 u.sru.stack.length :: u.sru.stack.map fun o => .int 2 o.tag) ++
      [.flag (u.sru.closing.any fun o => o.closingKind == some .suspended), .flag u.sru.lateAnswer]) [] []
      fun _ _ => True) ∧
    (∀ (place : SalePlace) (n : Nat) (o : Sale) (l : Line), s.sru.place place = some o → o.line? n = some l →
      Serves (.lineRead tag place n) tag s .ok (fun _ =>
        [.int 1 l.number, .enum l.kind.code, .enum l.state.code] ++ optional _ l.plu (fun p => [.int 4 p]) ++
        [.text l.text] ++ optional _ l.quantity (fun q => [.int 2 q]) ++
        optional _ l.mass (fun m => [.int 4 m.gross, .enum m.tare.code] ++
          (if m.tare = .none then [.flag false] else [.flag true, .int 4 m.tare.value]) ++
          [.int 4 m.certified, .int 1 m.interval, .int 2 m.generation]) ++
        optional _ l.unitPrice (fun p => [.int 4 p]) ++ optional _ l.basis (fun b => [.enum b.code]) ++
        [.int 4 l.amount] ++ optional _ l.voided (fun n => [.int 1 n]) ++
        optional _ l.card (fun c => [.text c.masked, .text c.approval, .int 2 c.serial]) ++ [.enum l.print.code] ++
        optional _ (o.referrals.find? fun r => r.line == n) (fun r => [.enum r.reason.code])) [] [] fun _ _ => True) ∧
    (∀ (place : SalePlace) (n : Nat), s.sru.place place = none → Refuses (.lineRead tag place n) tag s .notFound) ∧
    (∀ (place : SalePlace) (n : Nat) (o : Sale), s.sru.place place = some o → o.line? n = none →
      Refuses (.lineRead tag place n) tag s .notFound) ∧
    (Serves (.cardRead tag) tag s .ok (fun u =>
      let track := fun o : TrackOutcome =>
        (match o.status with
         | .parity i => [.enum 5, .int 4 i]
         | x => [.enum x.code]) ++ optional _ o.direction (fun d => [.enum d.code]) ++ [.text o.chars]
      [.enum u.sdc.slot.code, .int 2 u.sdc.counter] ++
      optional _ u.sdc.slot.record? (fun r => [.int 2 r.serial, .int 2 r.generation] ++ track r.trackA ++
        track r.trackB ++ optional _ r.account (fun a => [.text a])) ++
      optional _ u.sdc.slot.due? (fun d => [left d u.clock]) ++
      [.enum u.sdc.trackA.state.code, .enum u.sdc.trackB.state.code]) [] [] fun _ _ => True) ∧
    (Serves (.tillRead tag) tag s .ok (fun u =>
      [.enum u.tlc.state.code, .enum (if u.tlc.switchOpen then 0 else 1), .flag u.tlc.state.flagged] ++
      optional _ u.tlc.auth (fun a => .enum a.code :: tagged a.tag) ++
      [.int 1 u.tlc.retries, .flag u.pbu.warning, .flag (u.wch.state == .cal)] ++
      optional _ u.tlc.state.due? (fun d => [left d u.clock])) [] [] fun _ _ => True) ∧
    (Serves (.printRead tag) tag s .ok (fun u =>
      printer u.pen.state ++
      [.flag u.pen.paperMark, .flag u.pen.coverMark, .flag u.pen.nearEnd, .flag u.pen.paperOut, .flag u.pen.coverOpen,
       .flag u.pen.headHot, .enum (if u.pen.home then 0 else 1), .int 1 u.pen.queue.length,
       .int 1 (48 - u.pen.queue.length : Nat)] ++
      (match u.pen.queue with
       | [] => [.flag false]
       | .line l :: _ =>
         [.flag true, .enum 0, .enum l.source.code] ++ tagged l.saleTag ++ optional _ l.line (fun n => [.int 1 n]) ++
         [.int 1 l.rowsDone, .flag l.double, .flag l.cutAfter]
       | .feed rows :: _ => [.flag true, .enum 1, .int 1 rows]
       | .cut :: _ => [.flag true, .enum 2]) ++
      [.int 1 u.pen.feed, .int 1 u.pen.sinceGlyph] ++ optional _ u.pen.owed tagged ++ tagged u.pen.context.sale ++
      [.flag u.pen.context.header, .flag u.pen.context.tail, .int 2 u.tbs.font.generation,
       .int 2 u.tbs.headerTrailer.generation]) [] [] fun _ _ => True) ∧
    (Serves (.budgetRead tag) tag s .ok (fun u =>
      [.int 1 ((u.pbu.grants.map Grant.cost).sum : Nat), .int 1 u.pbu.grants.length, .int 1 u.pbu.grants.length] ++
      (u.pbu.grants.flatMap fun g => [.enum g.kind.code, .int 1 g.cost, .int 4 (u.clock - g.start : Nat)]) ++
      optional _ u.pbu.arbiter (fun a => tagged a.saleTag ++ optional _ a.line (fun n => [.int 1 n])) ++
      optional _ u.pbu.pulse (fun p => [left u.clock p]) ++ [.flag u.pbu.strobe] ++
      optional _ u.pbu.solenoidReq (fun r => [left u.clock r]) ++
      optional _ u.pbu.phaseReq (fun r =>
        [.enum (if r.first then 0 else 1), .int 1 r.cost, .int 4 (u.clock - r.since : Nat)]) ++
      [.flag u.pbu.warning]) [] [] fun _ _ => True) ∧
    (Serves (.accessoryRead tag) tag s .ok (fun u =>
      ([1, 2, 3, 4].flatMap fun n =>
        [.enum (u.acp.units.get n).role.code, .enum (u.acp.units.get n).presence.code, .int 1 (u.acp.units.get n).misses,
         .int 1 (u.acp.queue.countP fun f => f.unit == n), .flag (u.acp.queue.any fun f => f.unit == n && f.mirror)]) ++
      [.int 1 (16 - u.acp.queue.length : Nat)] ++
      optional _ u.acp.held (fun h => [.text h.frame.payload, .int 4 h.plu]) ++
      [.flag u.acp.mirrorDue.isSome, .flag u.acp.lastSent, .int 2 u.acp.blocked, .int 2 u.tbs.code.generation]) [] []
      fun _ _ => True) ∧
    (Serves (.tableStatus tag) tag s .ok (fun u =>
      [TableName.item, .code, .font, .cardFormat, .headerTrailer].flatMap fun n =>
        let resting := match u.pen.state with
          | .idle => true
          | .halted _ => true
          | _ => false
        let ready := match n with
          | .item => u.sru.openSlot.isNone
          | .code => u.sru.openSlot.isNone
          | .font => u.pen.queue.isEmpty && resting
          | .headerTrailer => u.pen.queue.isEmpty && resting
          | .cardFormat => (u.sdc.trackA.state == .idle || u.sdc.trackA.state == .done) &&
              (u.sdc.trackB.state == .idle || u.sdc.trackB.state == .done)
        [.int 2 (u.tbs.generation n), .int 2 (u.tbs.look n fun _ b => b.active.length), .enum (u.tbs.loadState n).code,
         .int 2 (u.tbs.look n fun _ b => b.load.length)] ++
        (if u.tbs.loadState n = .pending then [.flag true, .flag ready] else [.flag false]) ++
        (match u.tbs.session with
         | some x => if x.table = n then [.flag true, .int 2 x.count, left x.due u.clock] else [.flag false]
         | none => [.flag false]) ++
        optional _ (u.tbs.look n fun _ b => b.last) (fun r =>
          match r with
          | .swapped => [.enum 0]
          | .invalid why position => [.enum 1, .enum why.code, .int 4 position]
          | .count => [.enum 2]
          | .idle => [.enum 3]
          | .cancelled => [.enum 4])) [] [] fun _ _ => True) ∧
    (∀ (name : List Byte), paramNamed name = none → Refuses (.getParam tag name) tag s .notFound) ∧
    (∀ (name : List Byte) (k : Param), paramNamed name = some k →
      Serves (.getParam tag name) tag s .ok (fun u => u.param k) [] [] fun _ _ => True) ∧
    (Serves (.laneStatus tag) tag s .ok (fun u =>
      [.enum u.lli.lane.code, .flag u.lli.linkError] ++
      [.enum u.wch.state.code] ++ optional _ u.wch.faultCause (fun c => [.enum c.code]) ++
      [bitsField u.wch.bits.toList, .flag u.wch.capture.isSome, .enum (if u.wch.calSwitchClosed then 1 else 0)] ++
      optional _ u.sru.openSlot (fun o => [.int 2 o.tag, .enum o.state.code]) ++
      optional _ u.sru.closing (fun o => [.int 2 o.tag, .enum o.state.code]) ++
      [.int 1 u.sru.stack.length, .flag (u.sru.closing.any fun o => o.closingKind == some .suspended),
       .flag (u.sru.openSlot.any fun o => o.cardTender.isSome), .enum u.sdc.slot.code, .int 2 u.sdc.counter,
       .enum u.sdc.trackA.state.code, .enum u.sdc.trackB.state.code, .enum u.tlc.state.code, .flag u.tlc.auth.isSome] ++
      printer u.pen.state ++
      [.int 1 ((u.pbu.grants.map Grant.cost).sum : Nat), .flag u.pbu.arbiter.isSome, .flag u.pbu.solenoidReq.isSome,
       .flag u.pbu.warning] ++
      ([1, 2, 3, 4].map fun n => .enum (u.acp.units.get n).presence.code) ++ [.flag u.acp.held.isSome] ++
      [.enum u.sst.state.code, .int 2 u.tbs.item.generation, .int 2 u.tbs.code.generation, .int 2 u.tbs.font.generation,
       .int 2 u.tbs.cardFormat.generation, .int 2 u.tbs.headerTrailer.generation,
       .int 1 (u.lli.requests.length + 1 : Nat), .int 1 u.lli.responses.length, .int 1 u.lli.accUps.length]) [.link] []
      fun u t => t.lli.settings = { u.lli.settings with linkError := false })

/-! ## Invariants -/

/-- R146, R151, R193 to R195, R122, R133, R58, R65, R73, R3, R7, R10, R197: the grant list's costs stay within the budget,
every queue within its capacity, the pending notices in ascending order of distinct kinds, the sales within their limits,
the channel and the parameters within their ranges, whatever command comes. -/
def Obligations.EveryStepKeepsTheInvariant : Prop :=
  ∀ s t : State, Kept s → step s = .next t → Kept t

/-- R188, R28, R88, R106, R119, R145, R156, R172, R187, R53: `State.reset` has the values of a power reset of a part fresh
from manufacture; the quiet inputs (log 7) and UNKNOWN for the units of role NONE (log 53) are the model's choices. The
invariant holds at reset. -/
def Obligations.ResetStateIsAPowerResetAndMeetsTheInvariant : Prop :=
  (ResetTo .power Pins.quiet State.reset State.reset ∧ State.reset.tbs = Tbs.cleared ∧ State.reset.sru.nextTag = 1 ∧
   State.reset.sdc.counter = 0 ∧ CheckedStore SealedFigures.manufactured (integrityWord SealedFigures.manufactured) State.reset) ∧
  (Kept State.reset)

/-! ## Table records -/

/-- R174 to R176, R178: a record of the item, code, font, card format or header/trailer table is checked in the order of its
rule: the first check that fails refuses it with that reason and aborts the session as INVALID at the record's position, the
load bank emptied and the active tables untouched; a record that passes them all enters the load bank last, and the count is
answered. The model's choices, not the spec's: the count in the response takes 2 bytes (log 65), and a record's fields stand
in the order of log 27. Requests are taken at the router of log 6. -/
def Obligations.TableRecordsAreCheckedInOrder : Prop :=
  ∀ (tag : Byte) (s : State) (x : Session), s.tbs.session = some x →
    (∀ (plu basis price : Nat) (text : List Byte) (tare : Option Nat) (refer : Bool), x.table = .item → plu < 2 ^ 32 →
      basis < 256 → price < 2 ^ 32 → text.length < 256 → (∀ p, tare = some p → p < 65536) →
      let misfits := fun p : Nat =>
        if s.sst.state = .intact ∧ s.sst.image.record.valid = true then
          p < 1 ∨ s.sst.image.record.max1 < p ∨ p % s.sst.image.record.e1 ≠ 0
        else p < 1 ∨ 30000 < p
      RecordTaken tag (itemRecord plu text basis price tare refer) x
        (if plu < 1 ∨ 999999 < plu ∨ 2 < basis ∨ 999999 < price then some .range
         else if 24 < text.length then some .length
         else if basis = 2 ∧ tare ≠ none then some .range
         else if ∃ p ∈ tare, misfits p then some .range
         else if ∃ e ∈ s.tbs.item.load, e.plu = plu then some .duplicate
         else if 1024 ≤ s.tbs.item.load.length then some .limit
         else none)
        (fun t => { t with item := { t.item with load := t.item.load ++
          [⟨plu, text, if basis = 0 then .perKg else if basis = 1 then .per100g else .each, price, tare, refer⟩] } }) s) ∧
    (∀ (lead : List Byte) (total action : Nat) (check : Bool) (plu price : Option (Nat × Nat)), x.table = .code →
      lead.length < 256 → total < 256 → action < 256 → (∀ f, plu = some f ∨ price = some f → f.1 < 256 ∧ f.2 < 256) →
      let last := if check then total - 1 else total
      RecordTaken tag (codeRecord lead total check action plu price) x
        (if lead.length < 1 ∨ 6 < lead.length ∨ (∃ d ∈ lead, d.toNat < 48 ∨ 57 < d.toNat) ∨
            (total ≠ 0 ∧ (total < 8 ∨ 20 < total)) ∨ 3 < action then some .range
         else if ¬(plu.isSome ↔ action = 1 ∨ action = 2) ∨ ¬(price.isSome ↔ action = 2) then some .range
         else if (∃ f ∈ plu, f.1 < 1 ∨ 20 < f.1 ∨ f.2 < 1 ∨ 6 < f.2) ∨
            (∃ f ∈ price, f.1 < 1 ∨ 20 < f.1 ∨ f.2 < 1 ∨ 9 < f.2) then some .range
         else if total ≠ 0 ∧ (total < lead.length ∨ (∃ f ∈ plu, last < f.1 + f.2 - 1) ∨
            (∃ f ∈ price, last < f.1 + f.2 - 1)) then some .range
         else if ∃ e ∈ s.tbs.code.load, e.lead = lead ∧ e.total = total then some .duplicate
         else if 64 ≤ s.tbs.code.load.length then some .limit
         else none)
        (fun t => { t with code := { t.code with load := t.code.load ++
          [⟨lead, total, check, if action = 0 then .forward else if action = 1 then .weigh
            else if action = 2 then .embedded else .block, plu, price⟩] } }) s) ∧
    (∀ (code : Nat) (rows : List Nat), x.table = .font → code < 256 → rows.length = 24 → (∀ r ∈ rows, r < 65536) →
      RecordTaken tag (natBytes 1 code ++ rows.flatMap (natBytes 2)) x
        (if code < 32 ∨ 127 < code then some .range
         else if ∃ e ∈ s.tbs.font.load, e.code = code then some .duplicate
         else none)
        (fun t => { t with font := { t.font with load := t.font.load ++ [⟨code, rows.map (BitVec.ofNat 12)⟩] } }) s) ∧
    (∀ k w a b c m : Nat, x.table = .cardFormat → (∀ n ∈ [k, w, a, b, c, m], n < 256) →
      let track := if k = 0 then Track.a else .b
      RecordTaken tag ([k, w, a, b, c, m].flatMap (natBytes 1)) x
        (if 1 < k ∨ w < 4 ∨ 6 < w ∨ 2 ^ w ≤ a ∨ 2 ^ w ≤ b ∨ 2 ^ w ≤ c ∨ m < 2 ∨ (if k = 0 then 79 else 40) < m then
           some .range
         else if a = b ∨ a = c ∨ b = c then some .range
         else if ∃ e ∈ s.tbs.cardFormat.load, e.track = track then some .duplicate
         else none)
        (fun t => { t with cardFormat := { t.cardFormat with load := t.cardFormat.load ++ [⟨track, w, a, b, c, m⟩] } })
        s) ∧
    (∀ (kind position : Nat) (text : List Byte) (double : Bool), x.table = .headerTrailer → kind < 256 → position < 256 →
      text.length < 256 →
      RecordTaken tag (headerRecord kind position text double) x
        (if 1 < kind ∨ position < 1 ∨ 4 < position then some .range
         else if 32 < text.length then some .length
         else if ∃ e ∈ s.tbs.headerTrailer.load, e.trailer = (kind == 1) ∧ e.position = position then some .duplicate
         else none)
        (fun t => { t with headerTrailer := { t.headerTrailer with load := t.headerTrailer.load ++
          [⟨kind == 1, position, text, double⟩] } }) s)
end

