-- ==== Sys2Proof/Laws/Link.lean ====
section
/-! SUPPORT. What the shared operations of Machine/Ops.lean do: the pending set, the transmitter, the end of an event, the
router. -/

namespace Sys2Proof.Machine

open Sys2Proof

/-! ## The pending set (R195) -/

theorem mem_insertNotice_self (n : Notice) (l : List Notice) : n ∈ insertNotice n l := by
  induction l with
  | nil => simp [insertNotice]
  | cons m ms ih => unfold insertNotice; split <;> [simp; (split <;> simp [ih])]

theorem mem_insertNotice_other {n m : Notice} {l : List Notice} (h : m.kind ≠ n.kind) :
    m ∈ insertNotice n l ↔ m ∈ l := by
  have hne : m ≠ n := fun e => h (e ▸ rfl)
  induction l with
  | nil => simp [insertNotice, hne]
  | cons a as ih =>
    unfold insertNotice; split
    · simp [hne]
    · split
      · rename_i h1 h2
        have : m ≠ a := fun e => h (e ▸ h2.symm)
        simp [hne, this]
      · simp [ih]

/-- The lowest notice of a kind just raised is the one raised. -/
theorem find_insertNotice (n : Notice) (l : List Notice) :
    (insertNotice n l).find? (fun m => m.kind == n.kind) = some n := by
  induction l with
  | nil => simp [insertNotice]
  | cons a as ih =>
    unfold insertNotice; split
    · simp
    · split
      · simp
      · rename_i h1 h2
        have : (a.kind == n.kind) = false := by simp; omega
        simp [this, ih]

theorem ascending_insertNotice (n : Notice) (l : List Notice) (h : ascending l) :
    ascending (insertNotice n l) := by
  induction l with
  | nil => simp [insertNotice, ascending]
  | cons a as ih =>
    unfold insertNotice; split
    · exact ⟨by assumption, h⟩
    · split
      · rename_i h1 h2
        cases as with
        | nil => trivial
        | cons b bs => exact ⟨h2 ▸ h.1, h.2⟩
      · rename_i h1 h2
        cases as with
        | nil => simp [insertNotice, ascending]; omega
        | cons b bs =>
          have ih' := ih h.2
          simp only [insertNotice] at ih' ⊢
          split
          · rename_i h3; rw [if_pos h3] at ih'; exact ⟨by omega, ih'⟩
          · rename_i h3
            rw [if_neg h3] at ih'
            split
            · rename_i h4; rw [if_pos h4] at ih'; exact ⟨by have := h.1; omega, ih'⟩
            · rename_i h4; rw [if_neg h4] at ih'; exact ⟨h.1, ih'⟩

/-! ## Frames of the pending set -/

theorem RaisesOnly.refl (ks : List Nat) (s : State) : RaisesOnly ks s s := fun _ _ => ⟨id, .inl⟩

/-- Raising a notice of a kind of `ks`. -/
theorem RaisesOnly.raised {ks : List Nat} {s t : State} {n : Notice} (hn : n.kind ∈ ks) (h : RaisesOnly ks s t) :
    RaisesOnly ks s (raise n t) := fun m hm => by
  have hk : m.kind ≠ n.kind := fun e => hm (e ▸ hn)
  have := h m hm
  simp only [raise]
  rw [mem_insertNotice_other hk]
  exact this

/-! ## The transmitter (R194) -/

/-- All that a free transmitter can do: begin to send the oldest response, or an enabled notice, or the oldest accessory
frame, or nothing. -/
theorem pump_cases (s : State) :
    pump s = s ∨
    (s.lli.sending = none ∧ s.lli.resetAnswer ≠ .sent ∧
      ((∃ r rs, s.lli.responses = r :: rs ∧
          pump s = { s with lli := { s.lli with responses := rs, sending := some (.response r) } }) ∨
       (∃ n, s.lli.responses = [] ∧ s.lli.notices.find? (enabled s.lli.mask) = some n ∧
          pump s = { s with
            lli := { s.lli with notices := s.lli.notices.filter (fun m => m.kind != n.kind), sending := some (.notice n) }
            acp := { s.acp with blocked := if isAccessory n then 0 else s.acp.blocked } }) ∨
       (∃ f fs, s.lli.responses = [] ∧ s.lli.accUps = f :: fs ∧
          pump s = { s with lli := { s.lli with accUps := fs, sending := some (.accUp f) } }))) := by
  unfold pump
  split
  · exact .inl rfl
  · rename_i h
    simp only [Bool.or_eq_true, not_or, Bool.not_eq_true, Option.isSome_eq_false_iff, Option.isNone_iff_eq_none,
      beq_eq_false_iff_ne] at h
    unfold chooseFrame
    split
    · rename_i r rs hr; exact .inr ⟨h.1, h.2, .inl ⟨r, rs, hr, rfl⟩⟩
    · rename_i hr
      split
      · rename_i n hn; exact .inr ⟨h.1, h.2, .inr (.inl ⟨n, hr, hn, rfl⟩)⟩
      · split
        · rename_i f fs hf; exact .inr ⟨h.1, h.2, .inr (.inr ⟨f, fs, hr, hf, rfl⟩)⟩
        · exact .inl rfl

/-- The transmitter's choice leaves every part alone, and loses no notice but the one it sends. -/
theorem ChangesOnly.pumped {ps : List Part} {ks : List Nat} {s t : State} (h : ChangesOnly ps ks s t)
    (htx : s.lli.sending.isSome = true → t.lli.sending = s.lli.sending)
    (hacp : t.lli.sending = none → Part.accessory ∉ ps → t.acp = s.acp) :
    ChangesOnly ps ks s (pump t) := by
  obtain ⟨hp, hparts, hn⟩ := h
  rcases pump_cases t with e | ⟨hs, _, ⟨r, rs, hr, e⟩ | ⟨n, hr, hf, e⟩ | ⟨f, fs, hr, hf, e⟩⟩ <;> rw [e]
  · exact ⟨hp, hparts, hn⟩
  · have hs0 : s.lli.sending = none := by
      cases hss : s.lli.sending with
      | none => rfl
      | some _ => have := htx (by simp [hss]); simp [hss, hs] at this
    refine ⟨hp, fun p hpp => ?_, fun m hm => ⟨(hn m hm).1, fun hms => ?_⟩⟩
    · have h := hparts p hpp
      cases p <;> simp_all [samePart, Lli.settings, Lli.upstream, Lli.upFrames, Lli.sendsAccessory]
    · rcases (hn m hm).2 hms with h | ⟨m', _, h⟩
      · exact .inl h
      · simp [hs] at h
  · have hs0 : s.lli.sending = none := by
      cases hss : s.lli.sending with
      | none => rfl
      | some _ => have := htx (by simp [hss]); simp [hss, hs] at this
    refine ⟨hp, fun p hpp => ?_, fun m hm => ⟨fun hmt => ?_, fun hms => ?_⟩⟩
    · have h := hparts p hpp
      cases p <;> try (simp_all [samePart, Lli.settings, Lli.upstream, Lli.upFrames]; done)
      case accessory =>
        have ha := hacp hs hpp
        by_cases hb : isAccessory n
        · exact .inr ⟨by simp [ha, hb], n, rfl, hb⟩
        · exact .inl (by simp [hb, ha])
    · exact (hn m hm).1 (List.mem_filter.mp hmt).1
    · rcases (hn m hm).2 hms with h | ⟨m', _, h⟩
      · by_cases hk : m.kind = n.kind
        · exact .inr ⟨n, hk.symm, rfl⟩
        · exact .inl (List.mem_filter.mpr ⟨h, by simpa using hk⟩)
      · simp [hs] at h
  · have hs0 : s.lli.sending = none := by
      cases hss : s.lli.sending with
      | none => rfl
      | some _ => have := htx (by simp [hss]); simp [hss, hs] at this
    refine ⟨hp, fun p hpp => ?_, fun m hm => ⟨(hn m hm).1, fun hms => ?_⟩⟩
    · have h := hparts p hpp
      cases p <;> simp_all [samePart, Lli.settings, Lli.upstream, Lli.upFrames, Lli.sendsAccessory]
    · rcases (hn m hm).2 hms with h | ⟨m', _, h⟩
      · exact .inl h
      · simp [hs] at h

/-- A notice raised stays known through the transmitter's choice. -/
theorem notified_pump {n : Notice} {t : State} (h : t.lli.notices.find? (fun m => m.kind == n.kind) = some n) :
    Notified (pump t) n := by
  have hm : n ∈ t.lli.notices := List.mem_of_find?_eq_some h
  rcases pump_cases t with e | ⟨hs, _, ⟨r, rs, hr, e⟩ | ⟨m, hr, hf, e⟩ | ⟨f, fs, hr, hf, e⟩⟩ <;> rw [e]
  · exact .inl hm
  · exact .inl hm
  · by_cases hk : n.kind = m.kind
    · right
      have : m = n := by
        have h2 : t.lli.notices.find? (enabled t.lli.mask) = some m := hf
        have key : ∀ l : List Notice, l.find? (fun x => x.kind == n.kind) = some n →
            l.find? (enabled t.lli.mask) = some m → m = n := by
          intro l
          induction l with
          | nil => simp
          | cons a as ih =>
            intro ha hb
            have hen : enabled t.lli.mask m = true := List.find?_some hf
            by_cases hak : a.kind = n.kind
            · have : a = n := by simpa [hak] using ha
              subst this
              have : enabled t.lli.mask a = true := by
                unfold enabled at hen ⊢; rw [hk]; exact hen
              simpa [this] using hb.symm
            · have h1 : as.find? (fun x => x.kind == n.kind) = some n := by
                simpa [hak] using ha
              by_cases hae : enabled t.lli.mask a = true
              · have : a = m := by simpa [hae] using hb
                exact absurd (this ▸ hk.symm) hak
              · exact ih h1 (by simpa [hae] using hb)
        exact key _ h h2
      simp [this]
    · exact .inl (List.mem_filter.mpr ⟨hm, by simpa using hk⟩)
  · exact .inl hm

/-! ## The end of an event -/

/-- WEIGHT is raised at the end of an event for what changed in the channel, and nothing else happens but the transmitter's
choice. -/
theorem ChangesOnly.finished {ps : List Part} {ks : List Nat} {s₀ s t : State} (h : ChangesOnly ps ks s t)
    (hw : s₀.wch.detail = t.wch.detail ∨ 2 ∈ ks)
    (htx : s.lli.sending.isSome = true → t.lli.sending = s.lli.sending)
    (hacp : t.lli.sending = none → Part.accessory ∉ ps → t.acp = s.acp) :
    ChangesOnly ps ks s (finish s₀ t) := by
  unfold finish noteWeight
  split
  · exact h.pumped htx hacp
  · have h2 : 2 ∈ ks := by
      rcases hw with h' | h'
      · contradiction
      · exact h'
    have hr : ChangesOnly ps ks s (raiseWeight t) := by
      refine ⟨h.1, fun p hp => ?_, h.2.2.raised h2⟩
      have := h.2.1 p hp
      cases p <;> exact this
    exact hr.pumped htx hacp

/-- The transmitter's choice, and so the end of an event, changes nothing of the blocks but the link and the blocked count. -/
theorem pump_blocks (s : State) :
    (pump s).clock = s.clock ∧ (pump s).free = s.free ∧ (pump s).pins = s.pins ∧ (pump s).wch = s.wch ∧
    (pump s).sst = s.sst ∧ (pump s).sru = s.sru ∧ (pump s).sdc = s.sdc ∧ (pump s).tlc = s.tlc ∧ (pump s).pen = s.pen ∧
    (pump s).pbu = s.pbu ∧ (pump s).tbs = s.tbs ∧ (pump s).pending = s.pending ∧
    (pump s).lli.settings = s.lli.settings ∧ (pump s).lli.requests = s.lli.requests ∧
    (pump s).lli.upstream = s.lli.upstream ∧ (pump s).lli.upFrames = s.lli.upFrames := by
  rcases pump_cases s with e | ⟨hs, _, ⟨r, rs, hr, e⟩ | ⟨n, hr, hf, e⟩ | ⟨f, fs, hr, hf, e⟩⟩ <;> rw [e] <;>
    simp_all [Lli.settings, Lli.upstream, Lli.upFrames]

@[simp] theorem pump_clock (s : State) : (pump s).clock = s.clock := (pump_blocks s).1
@[simp] theorem pump_free (s : State) : (pump s).free = s.free := (pump_blocks s).2.1
@[simp] theorem pump_pins (s : State) : (pump s).pins = s.pins := (pump_blocks s).2.2.1
@[simp] theorem pump_wch (s : State) : (pump s).wch = s.wch := (pump_blocks s).2.2.2.1
@[simp] theorem pump_sst (s : State) : (pump s).sst = s.sst := (pump_blocks s).2.2.2.2.1
@[simp] theorem pump_sru (s : State) : (pump s).sru = s.sru := (pump_blocks s).2.2.2.2.2.1
@[simp] theorem pump_sdc (s : State) : (pump s).sdc = s.sdc := (pump_blocks s).2.2.2.2.2.2.1
@[simp] theorem pump_tlc (s : State) : (pump s).tlc = s.tlc := (pump_blocks s).2.2.2.2.2.2.2.1
@[simp] theorem pump_pen (s : State) : (pump s).pen = s.pen := (pump_blocks s).2.2.2.2.2.2.2.2.1
@[simp] theorem pump_pbu (s : State) : (pump s).pbu = s.pbu := (pump_blocks s).2.2.2.2.2.2.2.2.2.1
@[simp] theorem pump_tbs (s : State) : (pump s).tbs = s.tbs := (pump_blocks s).2.2.2.2.2.2.2.2.2.2.1
@[simp] theorem pump_pending (s : State) : (pump s).pending = s.pending := (pump_blocks s).2.2.2.2.2.2.2.2.2.2.2.1
@[simp] theorem pump_settings (s : State) : (pump s).lli.settings = s.lli.settings :=
  (pump_blocks s).2.2.2.2.2.2.2.2.2.2.2.2.1
@[simp] theorem pump_requests (s : State) : (pump s).lli.requests = s.lli.requests :=
  (pump_blocks s).2.2.2.2.2.2.2.2.2.2.2.2.2.1
@[simp] theorem pump_upstream (s : State) : (pump s).lli.upstream = s.lli.upstream :=
  (pump_blocks s).2.2.2.2.2.2.2.2.2.2.2.2.2.2.1
@[simp] theorem pump_upFrames (s : State) : (pump s).lli.upFrames = s.lli.upFrames :=
  (pump_blocks s).2.2.2.2.2.2.2.2.2.2.2.2.2.2.2

theorem finish_eq (s₀ t : State) : finish s₀ t = pump t ∨ finish s₀ t = pump (raiseWeight t) := by
  unfold finish noteWeight; split <;> simp

@[simp] theorem finish_clock (a s : State) : (finish a s).clock = s.clock := by
  rcases finish_eq a s with e | e <;> rw [e, pump_clock]
  rfl
@[simp] theorem finish_wch (a s : State) : (finish a s).wch = s.wch := by
  rcases finish_eq a s with e | e <;> rw [e, pump_wch]
  rfl
@[simp] theorem finish_sst (a s : State) : (finish a s).sst = s.sst := by
  rcases finish_eq a s with e | e <;> rw [e, pump_sst]
  rfl
@[simp] theorem finish_sru (a s : State) : (finish a s).sru = s.sru := by
  rcases finish_eq a s with e | e <;> rw [e, pump_sru]
  rfl
@[simp] theorem finish_sdc (a s : State) : (finish a s).sdc = s.sdc := by
  rcases finish_eq a s with e | e <;> rw [e, pump_sdc]
  rfl
@[simp] theorem finish_tlc (a s : State) : (finish a s).tlc = s.tlc := by
  rcases finish_eq a s with e | e <;> rw [e, pump_tlc]
  rfl
@[simp] theorem finish_pen (a s : State) : (finish a s).pen = s.pen := by
  rcases finish_eq a s with e | e <;> rw [e, pump_pen]
  rfl
@[simp] theorem finish_pbu (a s : State) : (finish a s).pbu = s.pbu := by
  rcases finish_eq a s with e | e <;> rw [e, pump_pbu]
  rfl
@[simp] theorem finish_tbs (a s : State) : (finish a s).tbs = s.tbs := by
  rcases finish_eq a s with e | e <;> rw [e, pump_tbs]
  rfl
@[simp] theorem finish_pins (a s : State) : (finish a s).pins = s.pins := by
  rcases finish_eq a s with e | e <;> rw [e, pump_pins]
  rfl
@[simp] theorem finish_free (a s : State) : (finish a s).free = s.free := by
  rcases finish_eq a s with e | e <;> rw [e, pump_free]
  rfl
@[simp] theorem finish_pending (a s : State) : (finish a s).pending = s.pending := by
  rcases finish_eq a s with e | e <;> rw [e, pump_pending]
  rfl
@[simp] theorem finish_requests (a s : State) : (finish a s).lli.requests = s.lli.requests := by
  rcases finish_eq a s with e | e <;> rw [e, pump_requests]
  rfl
@[simp] theorem finish_upstream (a s : State) : (finish a s).lli.upstream = s.lli.upstream := by
  rcases finish_eq a s with e | e <;> rw [e, pump_upstream]
  rfl
@[simp] theorem finish_upFrames (a s : State) : (finish a s).lli.upFrames = s.lli.upFrames := by
  rcases finish_eq a s with e | e <;> rw [e, pump_upFrames]
  rfl
@[simp] theorem finish_settings (a s : State) : (finish a s).lli.settings = s.lli.settings := by
  rcases finish_eq a s with e | e <;> rw [e, pump_settings]
  rfl

/-- A notice last raised of its kind, but for WEIGHT, is known after the end of the event. -/
theorem notified_finish {n : Notice} (a : State) {t : State} (hk : n.kind ≠ 2)
    (h : t.lli.notices.find? (fun m => m.kind == n.kind) = some n) : Notified (finish a t) n := by
  rcases finish_eq a t with e | e <;> rw [e]
  · exact notified_pump h
  · apply notified_pump
    have key : ∀ l : List Notice, l.find? (fun x => x.kind == n.kind) = some n →
        (insertNotice t.wch.detail l).find? (fun x => x.kind == n.kind) = some n := by
      intro l
      have hd : t.wch.detail.kind = 2 := rfl
      have hd' : (t.wch.detail.kind == n.kind) = false := by simp [hd]; omega
      induction l with
      | nil => simp
      | cons a as ih =>
        intro ha
        unfold insertNotice
        split
        · simpa [hd'] using ha
        · split
          · rename_i h2
            have : (a.kind == n.kind) = false := by simp [← h2, hd]; omega
            simpa [hd', this] using ha
          · by_cases hak : a.kind = n.kind
            · simpa [hak] using ha
            · have : (a.kind == n.kind) = false := by simpa using hak
              simp only [List.find?_cons, this] at ha ⊢
              exact ih ha
    exact key _ h

/-- What changed in the channel is known as WEIGHT after the end of the event (R26). -/
theorem notified_weight {a t : State} (h : a.wch.detail ≠ t.wch.detail) : Notified (finish a t) t.wch.detail := by
  unfold finish noteWeight
  rw [if_neg h]
  exact notified_pump (find_insertNotice _ _)

/-- A notice stands in the pending set as the one of its kind. -/
def Standing (s : State) (n : Notice) : Prop := s.lli.notices.find? (fun m => m.kind == n.kind) = some n

theorem standing_raise (n : Notice) (s : State) : Standing (raise n s) n := find_insertNotice n _

/-- A notice of another kind leaves it standing. -/
theorem Standing.raised {s : State} {n : Notice} (m : Notice) (h : Standing s n) (hk : m.kind ≠ n.kind) :
    Standing (raise m s) n := by
  unfold Standing at *
  show (insertNotice m s.lli.notices).find? _ = _
  have hd : (m.kind == n.kind) = false := by simpa using hk
  generalize s.lli.notices = l at *
  induction l with
  | nil => simp at h
  | cons a as ih =>
    unfold insertNotice
    split
    · simpa [hd] using h
    · split
      · rename_i h2
        have : (a.kind == n.kind) = false := by rw [← h2]; exact hd
        simpa [hd, this] using h
      · by_cases hak : a.kind = n.kind
        · simpa [hak] using h
        · have : (a.kind == n.kind) = false := by simpa using hak
          simp only [List.find?_cons, this] at h ⊢
          exact ih h

theorem Standing.of_notices {s t : State} {n : Notice} (h : Standing s n) (e : t.lli.notices = s.lli.notices) :
    Standing t n := by
  unfold Standing at *; rw [e]; exact h

/-- A notice that stands is known after the end of the event: WEIGHT as the channel then is, another as it stands. -/
theorem Standing.finish {s : State} {n : Notice} (a : State) (h : Standing s n) (hk : n.kind ≠ 2) :
    Notified (finish a s) n := notified_finish a hk h

theorem Standing.finish_weight {s : State} (a : State) (h : Standing s s.wch.detail) :
    Notified (Machine.finish a s) s.wch.detail := by
  unfold Machine.finish noteWeight
  split
  · exact notified_pump h
  · exact notified_pump (find_insertNotice _ _)

/-! ## The router (R193) -/

/-- What a request that the router takes does: its block's answer, its response, and the end of the event. -/
theorem request_taken {i : Instr} {tag : Byte} {h : State → State × Reply} {s u : State} (hr : AtRouter i s u)
    (ofReset : Bool) : route i tag ofReset h s = answer tag ofReset h u := by
  obtain ⟨ho, ⟨he, rfl⟩ | ⟨rest, he, rfl⟩⟩ := hr
  · simp [route, he, ho]
  · simp [route, he, ho, popRequest]

@[simp] theorem finish_answer_upstream (a u : State) (tag : Byte) (b : Bool) (h : State → State × Reply) :
    (finish a (answer tag b h u)).lli.upstream =
      (h u).1.lli.upstream ++ [⟨tag, (h u).2.verdict, (h u).2.fields, b⟩] := by
  rw [finish_upstream]
  simp [answer, respond, Lli.upstream]

end Sys2Proof.Machine
end

