-- ==== Sys2Proof/Laws/Serving.lean ====
section
/-! SUPPORT. How a statement about a request or an event comes down to what its block does before the end of the event. -/

namespace Sys2Proof.Machine

open Sys2Proof

/-- A part left alone by a block's own work, before the transmitter chooses. -/
def exactPart (s t : State) : Part → Prop
  | .accessory => t.acp = s.acp
  | .clock => samePart s t .clock
  | .free => samePart s t .free
  | .pins => samePart s t .pins
  | .link => samePart s t .link
  | .requests => samePart s t .requests
  | .responses => t.lli.responses = s.lli.responses
  | .accFrames => t.lli.accUps = s.lli.accUps
  | .transmitter => t.lli.sending = s.lli.sending
  | .weighing => samePart s t .weighing
  | .store => samePart s t .store
  | .sale => samePart s t .sale
  | .stripe => samePart s t .stripe
  | .till => samePart s t .till
  | .printer => samePart s t .printer
  | .budget => samePart s t .budget
  | .tables => samePart s t .tables

/-- The frame of a block's own work: the transmitter, the responses and the queue of commands are left alone. -/
def Works (ps : List Part) (ks : List Nat) (s t : State) : Prop :=
  t.pending = s.pending ∧ t.lli.sending = s.lli.sending ∧ t.lli.responses = s.lli.responses ∧
  (∀ p, p ∉ ps → exactPart s t p) ∧ RaisesOnly ks s t

theorem Works.refl (ps : List Part) (ks : List Nat) (s : State) : Works ps ks s s :=
  ⟨rfl, rfl, rfl, fun p _ => by cases p <;> rfl, RaisesOnly.refl ks s⟩

theorem Works.changesOnly {ps : List Part} {ks : List Nat} {s t : State} (h : Works ps ks s t) : ChangesOnly ps ks s t := by
  obtain ⟨hp, hs, hr, hparts, hn⟩ := h
  refine ⟨hp, fun p hpp => ?_, hn⟩
  have h := hparts p hpp
  cases p <;> simp_all [samePart, exactPart, Lli.upstream, Lli.upFrames]

theorem Works.trans {ps : List Part} {ks : List Nat} {s t u : State} (h : Works ps ks s t) (h' : Works ps ks t u) :
    Works ps ks s u := by
  obtain ⟨hp, hs, hr, hparts, hn⟩ := h
  obtain ⟨hp', hs', hr', hparts', hn'⟩ := h'
  refine ⟨hp'.trans hp, hs'.trans hs, hr'.trans hr, fun p hpp => ?_, fun n hk => ⟨fun h => (hn n hk).1 ((hn' n hk).1 h), fun h => ?_⟩⟩
  · have h := hparts p hpp
    have h' := hparts' p hpp
    cases p <;> simp_all [samePart, exactPart]
  · rcases (hn n hk).2 h with h | ⟨m, hm, hsm⟩
    · exact (hn' n hk).2 h
    · exact .inr ⟨m, hm, hs' ▸ hsm⟩

theorem Works.mono {ps qs : List Part} {ks js : List Nat} {s t : State} (h : Works ps ks s t) (hp : ∀ p ∈ ps, p ∈ qs)
    (hk : ∀ k ∈ ks, k ∈ js) : Works qs js s t :=
  ⟨h.1, h.2.1, h.2.2.1, fun p hn => h.2.2.2.1 p (fun hm => hn (hp p hm)), fun n hn => h.2.2.2.2 n (fun hm => hn (hk n.kind hm))⟩

theorem Works.raised {ps : List Part} {ks : List Nat} {s t : State} {n : Notice} (h : Works ps ks s t) (hn : n.kind ∈ ks) :
    Works ps ks s (raise n t) := by
  refine ⟨h.1, h.2.1, h.2.2.1, fun p hp => ?_, h.2.2.2.2.raised hn⟩
  have := h.2.2.2.1 p hp
  cases p <;> exact this

/-- A block's own work with no notice raised: every part by computation. -/
theorem Works.of {ps : List Part} {s t : State} (hp : t.pending = s.pending) (hs : t.lli.sending = s.lli.sending)
    (hr : t.lli.responses = s.lli.responses) (hn : t.lli.notices = s.lli.notices)
    (h : ∀ p, p ∉ ps → exactPart s t p) : Works ps [] s t :=
  ⟨hp, hs, hr, h, fun _ _ => ⟨fun h => hn ▸ h, fun h => .inl (hn ▸ h)⟩⟩

/-! ## Events -/

/-- An event completes with its block's work and the end of the event. -/
theorem does_of {i : Instr} {f : State → State} {s : State} {ps : List Part} {ks : List Nat} {P : State → Prop}
    (he : exec i s = event f s) (hw : Works ps ks s (f s)) (hd : s.wch.detail = (f s).wch.detail ∨ 2 ∈ ks)
    (hP : P (finish s (f s))) : Does i s ps ks P :=
  ⟨finish s (f s), he, hw.changesOnly.finished hd (fun _ => hw.2.1) (fun _ ha => hw.2.2.2.1 .accessory ha), hP⟩

/-! ## Requests -/

theorem finish_respond_acp (a w : State) (r : Response) : (finish a (respond r w)).acp = w.acp := by
  rcases finish_eq a (respond r w) with e | e <;> rw [e]
  · rcases pump_cases (respond r w) with e | ⟨hs, _, ⟨r', rs, hr, e⟩ | ⟨n, hr, hf, e⟩ | ⟨f, fs, hr, hf, e⟩⟩ <;> rw [e] <;>
      simp_all [respond]
  · rcases pump_cases (raiseWeight (respond r w)) with e | ⟨hs, _, ⟨r', rs, hr, e⟩ | ⟨n, hr, hf, e⟩ | ⟨f, fs, hr, hf, e⟩⟩ <;>
      rw [e] <;> simp_all [respond, raiseWeight, raise]

theorem finish_respond_notices (a w : State) (r : Response) : (finish a (respond r w)).lli.notices =
    if a.wch.detail = w.wch.detail then w.lli.notices else insertNotice w.wch.detail w.lli.notices := by
  have key : ∀ x : State, x.lli.responses ≠ [] → (pump x).lli.notices = x.lli.notices := by
    intro x hx
    rcases pump_cases x with e | ⟨hs, _, ⟨r', rs, hr, e⟩ | ⟨n, hr, hf, e⟩ | ⟨f, fs, hr, hf, e⟩⟩ <;> rw [e]
    · contradiction
  unfold finish noteWeight
  have hd : (respond r w).wch.detail = w.wch.detail := rfl
  rw [hd]
  split
  · exact key _ (by simp [respond])
  · exact key _ (by simp [respond, raiseWeight, raise])

/-- A request that the router takes completes with its block's answer. -/
theorem serves_of {i : Instr} {tag : Byte} {h : State → State × Reply} {s : State} {v : Verdict} {fs : State → List Field}
    {ps : List Part} {ks : List Nat} {P : State → State → Prop} (he : exec i s = request i tag h s)
    (hu : ∀ u, AtRouter i s u → (h u).2 = ⟨v, fs u⟩ ∧ Works ps ks u (h u).1 ∧
      (u.wch.detail = (h u).1.wch.detail ∨ 2 ∈ ks) ∧ P u (finish s (respond ⟨tag, v, fs u, false⟩ (h u).1))) :
    Serves i tag s v fs ps ks P := by
  intro u hr
  obtain ⟨h1, hw, hd, hP⟩ := hu u hr
  have hwch : u.wch = s.wch := by
    obtain ⟨_, ⟨_, rfl⟩ | ⟨_, _, rfl⟩⟩ := hr <;> rfl
  refine ⟨_, by rw [he, request, request_taken hr, answer, h1], ?_, ?_, hP⟩
  · rw [Answered, finish_upstream]
    simp [respond, Lli.upstream, hw.2.1, hw.2.2.1]
  · have hw' : ChangesOnly (.responses :: ps) ks u (respond ⟨tag, v, fs u, false⟩ (h u).1) := by
      obtain ⟨hp, hs, hres, hparts, hn⟩ := hw
      refine ⟨hp, fun p hpp => ?_, hn⟩
      have h := hparts p (fun hm => hpp (List.mem_cons_of_mem _ hm))
      cases p <;> simp_all [samePart, exactPart, respond, Lli.upFrames, Lli.settings]
    refine hw'.finished ?_ (fun _ => hw.2.1) (fun _ ha => hw.2.2.2.1 .accessory (fun hm => ha (List.mem_cons_of_mem _ hm)))
    rw [← hwch]; exact hd

/-- A refusal changes nothing but the responses. -/
theorem refuses_of {i : Instr} {tag : Byte} {h : State → State × Reply} {s : State} {r : Reason}
    (he : exec i s = request i tag h s) (hu : ∀ u, AtRouter i s u → h u = refuse r u) : Refuses i tag s r :=
  serves_of he fun u hr => by rw [hu u hr]; exact ⟨rfl, Works.refl _ _ _, .inl rfl, trivial⟩

/-- A request that the router takes finds every part of the block but the request queue as the command found it. -/
theorem AtRouter.eq {i : Instr} {s u : State} (h : AtRouter i s u) :
    ∃ q, u = { s with lli := { s.lli with requests := q } } := by
  obtain ⟨_, ⟨_, rfl⟩ | ⟨rest, _, rfl⟩⟩ := h
  · exact ⟨_, rfl⟩
  · exact ⟨rest, rfl⟩

end Sys2Proof.Machine
end

