-- ==== Sys2Proof/Laws/Drive.lean ====
section
/-! SUPPORT. What the shared operations of the pulse budget, the till, the tables and the printer may change (`Works`), and that
the composer changes nothing of a sale but what it prints. -/

namespace Sys2Proof.Machine

open Sys2Proof

/-- `Works.trans`, the later step first: it says which state stands between. -/
theorem Works.after {ps : List Part} {ks : List Nat} {s t u : State} (h' : Works ps ks t u) (h : Works ps ks s t) :
    Works ps ks s u := h.trans h'

/-! ## The pulse budget -/

theorem openWindow_works (s : State) : Works [.weighing] [] s (openWindow s) :=
  Works.of rfl rfl rfl rfl fun p hp => by cases p <;> first | rfl | exact absurd (by simp) hp

theorem grantSolenoid_works (s : State) : Works [.budget, .till, .weighing] [] s (grantSolenoid s) :=
  Works.of rfl rfl rfl rfl fun p hp => by cases p <;> first | rfl | exact absurd (by simp) hp

theorem grantPhase_works (r : PhaseReq) (s : State) : Works [.budget, .printer] [] s (grantPhase r s) :=
  Works.of rfl rfl rfl rfl fun p hp => by cases p <;> first | rfl | exact absurd (by simp) hp

theorem examinePhase_works (s : State) : Works [.budget, .printer] [] s (examinePhase s) := by
  unfold examinePhase
  split
  · split
    · exact grantPhase_works _ s
    · exact Works.refl _ _ s
  · exact Works.refl _ _ s

/-- An examination grants the solenoid request, or a phase, or nothing (R151). -/
theorem examine_cases (s : State) :
    (s.pbu.solenoidReq.isSome = true ∧ s.pbu.solenoidFits = true ∧ examine s = grantSolenoid s) ∨
    (∃ r, s.pbu.phaseReq = some r ∧ s.pbu.phaseFits r = true ∧ examine s = grantPhase r s) ∨ examine s = s := by
  unfold examine examinePhase
  split
  · rename_i h
    simp only [Bool.and_eq_true] at h
    exact .inl ⟨h.1, h.2, rfl⟩
  · split
    · rename_i r hr
      split
      · rename_i h; exact .inr (.inl ⟨r, hr, h, rfl⟩)
      · exact .inr (.inr rfl)
    · exact .inr (.inr rfl)

theorem examine_works (s : State) : Works ([.budget, .printer] ++ s.grantParts) [] s (examine s) := by
  rcases examine_cases s with ⟨h, _, e⟩ | ⟨r, _, _, e⟩ | e <;> rw [e]
  · exact (grantSolenoid_works s).mono (by simp [State.grantParts, h]) (by simp)
  · exact (grantPhase_works r s).mono (by simp +contextual) (by simp)
  · exact Works.refl _ _ s

/-- An examination changes nothing of the grant list but a grant that fits the budget (R146, R151). -/
theorem examine_budget (s : State) (h : BudgetKept s) : BudgetKept (examine s) := by
  rcases examine_cases s with ⟨_, hf, e⟩ | ⟨r, _, hf, e⟩ | e <;> rw [e]
  · simp only [Pbu.solenoidFits, Bool.and_eq_true, decide_eq_true_eq] at hf
    have := hf.2
    simp [BudgetKept, grantSolenoid, openWindow, grantSum, solenoidCost, budget] at this ⊢
    omega
  · simp only [Pbu.phaseFits, Bool.and_eq_true, decide_eq_true_eq] at hf
    have := hf.2
    simp [BudgetKept, grantPhase, grantSum, budget] at this ⊢
    omega
  · exact h

theorem examine_wch (s : State) (h : s.pbu.solenoidReq = none) : (examine s).wch = s.wch := by
  rcases examine_cases s with ⟨hs, _, e⟩ | ⟨r, _, _, e⟩ | e <;> rw [e]
  · simp [h] at hs
  · rfl

theorem placePhase_works (first : Bool) (cost : Nat) (s : State) :
    Works ([.budget, .printer] ++ s.grantParts) [] s (placePhase first cost s) :=
  Works.after (examine_works _) (Works.of rfl rfl rfl rfl fun p hp => by
    cases p <;> first | rfl | exact absurd (by simp) hp)

theorem placeSolenoid_works (s : State) : Works [.budget, .till, .weighing, .printer] [] s (placeSolenoid s) :=
  Works.after ((examine_works { s with pbu := { s.pbu with solenoidReq := some s.clock } }).mono
      (by simp [State.grantParts]) (by simp))
    (Works.of rfl rfl rfl rfl fun p hp => by
    cases p <;> first | rfl | exact absurd (by simp) hp)

theorem withdrawSolenoid_works (s : State) : Works [.budget, .printer] [] s (withdrawSolenoid s) :=
  Works.after ((examine_works { s with pbu := { s.pbu with solenoidReq := none } }).mono (by simp [State.grantParts]) (by simp))
    (Works.of rfl rfl rfl rfl fun p hp => by
    cases p <;> first | rfl | exact absurd (by simp) hp)

theorem reportPulseEnd_works (s : State) :
    Works ([.budget, .printer, .weighing] ++ s.grantParts) [] s (reportPulseEnd s) :=
  Works.after ((examine_works { s with
        pbu := { s.pbu with pulse := none }
        wch := s.wch.setClosing (s.clock + s.lli.params.disturbanceSettle * 1000) }).mono
      (by intro p; simp [State.grantParts]; tauto) (by simp))
    (Works.of rfl rfl rfl rfl fun p hp => by
    cases p <;> first | rfl | exact absurd (by simp) hp)

theorem reportRowEnd_works (s : State) : Works ([.budget, .printer] ++ s.grantParts) [] s (reportRowEnd s) :=
  Works.after ((examine_works { s with pbu := { s.pbu with arbiter := none } }).mono (by simp [State.grantParts]) (by simp))
    (Works.of rfl rfl rfl rfl fun p hp => by
    cases p <;> first | rfl | exact absurd (by simp) hp)

/-! ## The till -/

theorem towardGrant_works (s : State) : Works [.budget, .till, .weighing, .printer] [] s (towardGrant s) := by
  unfold towardGrant
  split
  · exact Works.of rfl rfl rfl rfl fun p hp => by cases p <;> first | rfl | exact absurd (by simp) hp
  · exact Works.after (placeSolenoid_works _) (Works.of rfl rfl rfl rfl fun p hp => by
      cases p <;> first | rfl | exact absurd (by simp) hp)

theorem issueAuth_works (a : Auth) (s : State) : Works [.budget, .till, .weighing, .printer] [] s (issueAuth a s) := by
  unfold issueAuth
  split
  · exact Works.after (towardGrant_works _) (Works.of rfl rfl rfl rfl fun p hp => by
      cases p <;> first | rfl | exact absurd (by simp) hp)
  · exact Works.refl _ _ s

theorem examine_auth (s : State) : (examine s).tlc.auth = s.tlc.auth := by
  rcases examine_cases s with ⟨_, _, e⟩ | ⟨r, _, _, e⟩ | e <;> rw [e] <;> rfl

theorem issueAuth_auth (a : Auth) (s : State) :
    (issueAuth a s).tlc.auth = if s.tlc.state = .closed ∧ s.tlc.auth = none then some a else s.tlc.auth := by
  have ht : ∀ s : State, (towardGrant s).tlc.auth = s.tlc.auth := fun s => by
    unfold towardGrant placeSolenoid; split
    · rfl
    · rw [examine_auth]
  unfold issueAuth
  cases hs : s.tlc.state <;> cases ha : s.tlc.auth <;> simp [Tlc.issueOutcome, hs, ha, ht]

theorem holdImposed_works (s : State) : Works s.withdrawParts [] s (holdImposed s) := by
  unfold holdImposed State.withdrawParts
  split
  · exact Works.after
      ((withdrawSolenoid_works { s with tlc := { s.tlc with state := .closed } }).mono (by simp +contextual) (by simp))
      (Works.of rfl rfl rfl rfl fun p hp => by
      cases p <;> first | rfl | exact absurd (by simp) hp)
  · exact Works.refl _ _ s

theorem holdLifted_works (s : State) : Works [.budget, .till, .weighing, .printer] [] s (holdLifted s) := by
  unfold holdLifted
  split
  · exact towardGrant_works s
  · exact Works.refl _ _ s

/-! ## The tables -/

theorem trySwap_works (n : TableName) (s : State) : Works [.tables] [13] s (trySwap n s) := by
  unfold trySwap
  split
  · exact Works.raised ⟨rfl, rfl, rfl, fun p hp => by cases p <;> first | rfl | exact absurd (by simp) hp,
      RaisesOnly.refl _ s⟩ (by simp [Notice.kind])
  · exact Works.refl _ _ s

theorem trySwap_of_not_pending {n : TableName} {s : State} (h : s.tbs.loadState n ≠ .pending) : trySwap n s = s := by
  unfold trySwap; simp [h]

theorem swapSlotTables_works (s : State) : Works [.tables] [13] s (swapSlotTables s) :=
  (trySwap_works .item s).trans (trySwap_works .code _)

/-- The tables that wait for a resting printer. -/
def State.tableParts (s : State) : List Part := if s.printTablesWait then [.tables] else []

theorem swapPrintTables_works (s : State) : Works s.tableParts [13] s (swapPrintTables s) := by
  by_cases h : s.printTablesWait = true
  · simp only [State.tableParts, h, if_true]
    exact (trySwap_works .font s).trans (trySwap_works .headerTrailer _)
  · simp only [State.printTablesWait, Bool.or_eq_true, beq_iff_eq, not_or] at h
    have e : trySwap .font s = s := trySwap_of_not_pending h.1
    have e' : trySwap .headerTrailer s = s := trySwap_of_not_pending h.2
    rw [swapPrintTables, e, e']
    exact Works.refl _ _ s

/-! ## The composer -/

theorem edit_unprinted (o : Sale) (n : Nat) :
    (o.edit n fun l => { l with print := .queued }).unprinted = o.unprinted := by
  simp only [Sale.edit, Sale.unprinted, List.map_map, Sale.mk.injEq, and_true, true_and]
  apply List.map_congr_left
  intro l _
  simp only [Function.comp_apply]
  split <;> rfl

theorem composeLines_unprinted (d : Nat) (fuel : Nat) (o : Sale) (q : List QueueEntry) :
    (composeLines d fuel o q).1.unprinted = o.unprinted := by
  induction fuel generalizing o q with
  | zero => rfl
  | succ k ih =>
    unfold composeLines
    split
    · rfl
    · split
      · rfl
      · split
        · rw [ih]
          exact edit_unprinted o _
        · rfl

theorem composeTail_sale (h : List HeaderEntry) (d : Nat) (c : Composing) : (composeTail h d c).sale = c.sale := by
  unfold composeTail; split
  · rfl
  · split <;> rfl

theorem composeHeader_sale (h : List HeaderEntry) (c : Composing) : (composeHeader h c).sale = c.sale := by
  unfold composeHeader; split
  · rfl
  · split <;> rfl

theorem composeSaleLines_unprinted (d : Nat) (c : Composing) :
    (composeSaleLines d c).sale.unprinted = c.sale.unprinted := by
  unfold composeSaleLines; split
  · exact composeLines_unprinted ..
  · rfl

theorem setPrinting_unprinted {u : Sru} {o o' : Sale} (h : u.printing = some o) (ho : o'.unprinted = o.unprinted) :
    (u.setPrinting o').unprinted = u.unprinted := by
  unfold Sru.printing at h
  unfold Sru.setPrinting Sru.unprinted
  cases hc : u.closing with
  | some c =>
    have : c = o := by simpa [hc] using h
    subst this
    simp [ho]
  | none =>
    have : u.openSlot = some o := by simpa [hc] using h
    simp [this, ho]

/-- The composer changes nothing of the sales but print states and the next-to-queue index. -/
theorem composerFill_unprinted (s : State) : (composerFill s).sru.unprinted = s.sru.unprinted := by
  unfold composerFill
  split
  · rfl
  · rename_i o ho
    apply setPrinting_unprinted ho
    rw [composeTail_sale, composeSaleLines_unprinted, composeHeader_sale]

theorem composerFill_works (s : State) : Works [.printer, .sale] [] s (composerFill s) := by
  unfold composerFill
  split
  · exact Works.of rfl rfl rfl rfl fun p hp => by cases p <;> first | rfl | exact absurd (by simp) hp
  · exact Works.of rfl rfl rfl rfl fun p hp => by cases p <;> first | rfl | exact absurd (by simp) hp

theorem composerFill_empty {s : State} (h : s.sru.openSlot = none) (h' : s.sru.closing = none) :
    (composerFill s).sru = s.sru ∧ (composerFill s).pen = { s.pen with context := s.pen.context.follow none } := by
  unfold composerFill Sru.printing; simp [h, h']

theorem composerFill_state (s : State) : (composerFill s).pen.state = s.pen.state := by
  unfold composerFill; split <;> rfl

/-! ## The printer -/

theorem setPrinter_works (st : PrinterState) (s : State) : Works [.printer] [] s (setPrinter st s) :=
  Works.of rfl rfl rfl rfl fun p hp => by cases p <;> first | rfl | exact absurd (by simp) hp

theorem raisePrinter_works (s : State) : Works [] [12] s (raisePrinter s) :=
  (Works.refl _ _ s).raised (by simp [Notice.kind])

theorem enterHalt_works (r : HaltReason) (s : State) : Works (.printer :: s.tableParts) [12, 13] s (enterHalt r s) :=
  (((setPrinter_works (.halted r) s).mono (by simp) (by simp)).trans
    ((raisePrinter_works _).mono (by simp) (by simp))).trans
    ((swapPrintTables_works (raisePrinter (setPrinter (.halted r) s))).mono
      (fun p hp => List.mem_cons_of_mem _ hp) (by simp))

theorem swapPrintTables_pen (s : State) : (swapPrintTables s).pen = s.pen := by
  unfold swapPrintTables trySwap; (repeat' split) <;> rfl

theorem swapPrintTables_sru (s : State) : (swapPrintTables s).sru = s.sru := by
  unfold swapPrintTables trySwap; (repeat' split) <;> rfl

theorem enterHalt_pen (r : HaltReason) (s : State) : (enterHalt r s).pen = { s.pen with state := .halted r } := by
  unfold enterHalt; rw [swapPrintTables_pen]; rfl

theorem clearMarks_works (s : State) : Works [.printer] [] s
    { s with pen := { s.pen with paperMark := false, coverMark := false, queue := restartHead s.pen.queue } } :=
  Works.of rfl rfl rfl rfl fun p hp => by cases p <;> first | rfl | exact absurd (by simp) hp

theorem actMark_works (s : State) : Works (.printer :: s.tableParts) [12, 13] s (actMark s) :=
  Works.trans ((clearMarks_works s).mono (by simp) (by simp)) (enterHalt_works _ _)

theorem startRow_works (p : PrintLine) (s : State) :
    Works ([.printer, .budget] ++ s.grantParts) [] s (startRow p s) := by
  unfold startRow
  split
  · exact (setPrinter_works _ s).mono (by simp) (by simp)
  · exact ((setPrinter_works _ s).mono (by simp) (by simp)).trans
      ((placePhase_works _ _ _).mono (by intro p; simp only [State.grantParts, setPrinter, List.mem_append, List.mem_cons]; tauto) (by simp))

/-- What the printer may change when it goes on (R135). -/
def State.goParts (s : State) : List Part := [.printer, .sale, .budget] ++ s.grantParts ++ s.tableParts

theorem haltTest_works {s t : State} (h : haltTest s = some t) : Works s.goParts [12, 13] s t ∧ t.sru = s.sru := by
  unfold haltTest at h
  split at h
  · cases h
    refine ⟨(actMark_works s).mono (by intro p; simp [State.goParts]; tauto) (by simp), ?_⟩
    simp [actMark, enterHalt, swapPrintTables_sru]; rfl
  · split at h
    · cases h
      refine ⟨(enterHalt_works .supply s).mono (by intro p; simp [State.goParts]; tauto) (by simp), ?_⟩
      simp [enterHalt, swapPrintTables_sru]; rfl
    · cases h

theorem examine_sru (s : State) : (examine s).sru = s.sru := by
  rcases examine_cases s with ⟨_, _, e⟩ | ⟨r, _, _, e⟩ | e <;> rw [e] <;> rfl

theorem startRow_sru (p : PrintLine) (s : State) : (startRow p s).sru = s.sru := by
  unfold startRow placePhase; split
  · rfl
  · rw [examine_sru]; rfl

theorem goOnFrom_works (fuel : Nat) (s : State) :
    Works s.goParts [12, 13] s (goOnFrom fuel s) ∧ (goOnFrom fuel s).sru.unprinted = s.sru.unprinted := by
  induction fuel generalizing s with
  | zero => exact ⟨Works.refl _ _ s, rfl⟩
  | succ k ih =>
    unfold goOnFrom
    split
    · rename_i t ht
      exact ⟨(haltTest_works ht).1, by rw [(haltTest_works ht).2]⟩
    · split
      · exact ⟨(setPrinter_works _ s).mono (by simp [State.goParts]) (by simp), rfl⟩
      · split
        · exact ⟨(setPrinter_works _ s).mono (by simp [State.goParts]) (by simp), rfl⟩
        · have go : ∀ t : State, Works [.printer] [] s t → t.sru = s.sru → t.pbu = s.pbu → t.tbs = s.tbs →
              Works s.goParts [12, 13] s (goOnFrom k (composerFill t)) ∧
              (goOnFrom k (composerFill t)).sru.unprinted = s.sru.unprinted := by
            intro t ht hsru hpbu htbs
            have hp : (composerFill t).pbu = s.pbu := by
              rw [← hpbu]; unfold composerFill; split <;> rfl
            have hb : (composerFill t).tbs = s.tbs := by
              rw [← htbs]; unfold composerFill; split <;> rfl
            have hg : (composerFill t).goParts = s.goParts := by
              simp [State.goParts, State.grantParts, State.tableParts, State.printTablesWait, hp, hb]
            refine ⟨?_, ?_⟩
            · have h1 : Works s.goParts [12, 13] s t := ht.mono (by simp [State.goParts]) (by simp)
              have h2 : Works s.goParts [12, 13] t (composerFill t) :=
                (composerFill_works t).mono (by simp [State.goParts]) (by simp)
              have h3 := (ih (composerFill t)).1
              rw [hg] at h3
              exact (h1.trans h2).trans h3
            · rw [(ih (composerFill t)).2, composerFill_unprinted, hsru]
          split
          · exact go _ (Works.of rfl rfl rfl rfl fun p hp => by
              cases p <;> first | rfl | exact absurd (by simp) hp) rfl rfl rfl
          · exact go _ (Works.of rfl rfl rfl rfl fun p hp => by
              cases p <;> first | rfl | exact absurd (by simp) hp) rfl rfl rfl
          · split
            · exact ⟨(setPrinter_works _ s).mono (by simp [State.goParts]) (by simp), rfl⟩
            · exact ⟨(startRow_works _ s).mono (by intro p; simp [State.goParts]; tauto) (by simp), by rw [startRow_sru]⟩
          · refine ⟨((setPrinter_works _ s).mono (by simp [State.goParts]) (by simp)).trans
              ((swapPrintTables_works (setPrinter .idle s)).mono (by intro p; simp [State.goParts, State.tableParts, State.printTablesWait, setPrinter]; tauto) (by simp)), ?_⟩
            rw [swapPrintTables_sru]; rfl

theorem goOn_works (s : State) : Works s.goParts [12, 13] s (goOn s) := (goOnFrom_works _ s).1

theorem goOn_unprinted (s : State) : (goOn s).sru.unprinted = s.sru.unprinted := (goOnFrom_works _ s).2

theorem wakePrinter_works (s : State) : Works (.sale :: s.printParts) s.printKinds s (wakePrinter s) := by
  unfold wakePrinter
  split
  · rename_i h
    exact (goOn_works s).mono
      (by intro p; simp [State.goParts, State.printParts, State.tableParts, h.1]; tauto)
      (by simp [State.printKinds, h.1])
  · exact Works.refl _ _ s

theorem wakePrinter_unprinted (s : State) : (wakePrinter s).sru.unprinted = s.sru.unprinted := by
  unfold wakePrinter; split
  · exact goOn_unprinted s
  · rfl

/-- The composer's act changes the sale record unit in print states alone, and the printer as an entry of the queue may. -/
theorem composerAct_works (s : State) : Works (.sale :: s.printParts) s.printKinds s (composerAct s) := by
  have hp : (composerFill s).pbu = s.pbu := by unfold composerFill; split <;> rfl
  have hb : (composerFill s).tbs = s.tbs := by unfold composerFill; split <;> rfl
  have h2 := wakePrinter_works (composerFill s)
  have e1 : (composerFill s).printParts = s.printParts := by
    simp [State.printParts, State.grantParts, State.printTablesWait, hp, hb, composerFill_state]
  have e2 : (composerFill s).printKinds = s.printKinds := by simp [State.printKinds, composerFill_state]
  rw [e1, e2] at h2
  refine Works.trans ((composerFill_works s).mono ?_ (by simp)) h2
  intro p
  simp only [List.mem_cons, List.not_mem_nil, or_false]
  rintro (rfl | rfl)
  · right; unfold State.printParts; split <;> simp
  · left; rfl

theorem composerAct_unprinted (s : State) : (composerAct s).sru.unprinted = s.sru.unprinted := by
  rw [composerAct, wakePrinter_unprinted, composerFill_unprinted]

end Sys2Proof.Machine
end

