-- ==== Sys2Proof/Laws/Channel.lean ====
section
/-! SUPPORT. What the shared operations of the weighing channel may change (`Works`), and what they leave of the channel. -/

namespace Sys2Proof.Machine

open Sys2Proof

/-! ## Captures and the held read -/

theorem discardHeld_works (s : State) : Works [.accessory] [14] s (discardHeld s) := by
  unfold discardHeld
  split
  · exact Works.refl _ _ s
  · refine Works.raised ?_ (by simp [Notice.kind])
    exact ⟨rfl, rfl, rfl, fun p hp => by cases p <;> first | rfl | exact absurd (by simp) hp, RaisesOnly.refl _ s⟩

theorem discardHeld_wch (s : State) : (discardHeld s).wch = s.wch := by unfold discardHeld; split <;> rfl

theorem discardHeld_held (s : State) : (discardHeld s).acp.held = none := by
  unfold discardHeld; split
  · assumption
  · rfl

theorem endCapture_works (r : CaptureResult) (s : State) : Works [.weighing] [3] s (endCapture r s) := by
  unfold endCapture
  split
  · exact Works.refl _ _ s
  · refine Works.raised ?_ (by simp [Notice.kind])
    exact ⟨rfl, rfl, rfl, fun p hp => by cases p <;> first | rfl | exact absurd (by simp) hp, RaisesOnly.refl _ s⟩

theorem endCapture_none {r : CaptureResult} {s : State} (h : s.wch.capture = none) : endCapture r s = s := by
  unfold endCapture; simp [h]

theorem endCapture_capture (r : CaptureResult) (s : State) : (endCapture r s).wch.capture = none := by
  unfold endCapture; split
  · assumption
  · rfl

theorem beginCapture_works (plu : Nat) (c : CaptureSource) (s : State) : Works [.weighing] [] s (beginCapture plu c s) :=
  Works.of rfl rfl rfl rfl fun p hp => by cases p <;> first | rfl | exact absurd (by simp) hp

theorem startHeld_works (h : HeldScan) (s : State) : Works [.weighing, .accessory] [14] s (startHeld h s) := by
  unfold startHeld
  split
  · refine Works.raised ?_ (by simp [Notice.kind])
    exact ⟨rfl, rfl, rfl, fun p hp => by cases p <;> first | rfl | exact absurd (by simp) hp, RaisesOnly.refl _ s⟩
  · exact Works.refl _ _ s
  · exact (discardHeld_works s).mono (by simp) (by simp)

theorem captureEmptied_works (s : State) : Works [.weighing, .accessory] [14] s (captureEmptied s) := by
  unfold captureEmptied
  split
  · exact Works.refl _ _ s
  · split
    · exact startHeld_works _ s
    · exact (discardHeld_works s).mono (by simp) (by simp)

/-- Outside RUNNING the empty slot starts no capture: a held read is discarded, if there is one (R19, R167). -/
theorem captureEmptied_of_not_running {s : State} (h : s.wch.state ≠ .running) (hc : s.wch.capture = none) :
    captureEmptied s = discardHeld s := by
  unfold captureEmptied
  split
  · rename_i h'; simp [discardHeld, h']
  · split
    · rename_i x hx _
      unfold startHeld
      have : captureRefusal x.plu s = some .range ∨ captureRefusal x.plu s = some .state := by
        unfold captureRefusal; split
        · exact .inl rfl
        · simp [hc]
      rcases this with e | e <;> rw [e]
    · rfl

theorem captureEmptied_of_empty {s : State} (h : s.acp.held = none) : captureEmptied s = s := by
  unfold captureEmptied; simp [h]

theorem finishCapture_works (r : CaptureResult) (s : State) :
    Works [.weighing, .accessory] [3, 14] s (finishCapture r s) := by
  unfold finishCapture
  split
  · exact ((endCapture_works r s).mono (by simp) (by simp)).trans ((captureEmptied_works _).mono (by simp) (by simp))
  · exact Works.refl _ _ s

/-! ## Restarts, FAULT and CAL -/

theorem restart_works (c : RestartCause) (s : State) : Works (.weighing :: s.slotParts) [3, 14] s (restart c s) := by
  have h1 : Works (.weighing :: s.slotParts) [3, 14] s
      { endCapture .fault s with wch := (endCapture .fault s).wch.restarted c (endCapture .fault s).clock } :=
    Works.trans ((endCapture_works .fault s).mono (by simp) (by simp))
      ⟨rfl, rfl, rfl, fun p hp => by cases p <;> first | rfl | exact absurd (by simp) hp, RaisesOnly.refl _ _⟩
  unfold restart
  split
  · rename_i h
    refine Works.trans h1 ((captureEmptied_works _).mono ?_ (by simp))
    simp [State.slotParts, h]
  · exact h1

theorem restart_wch_of_empty {c : RestartCause} {s : State} (h : s.wch.capture = none) :
    restart c s = { s with wch := s.wch.restarted c s.clock } := by
  unfold restart; simp [h, endCapture_none h]

/-- The channel after a restart: a capture that waited is gone, with its ITEM tare (R6, R16, R22). -/
theorem restart_wch (c : RestartCause) (s : State) :
    (restart c s).wch = ((endCapture .fault s).wch).restarted c s.clock := by
  have hc : (endCapture .fault s).clock = s.clock := by unfold endCapture; split <;> rfl
  unfold restart
  split
  · rw [captureEmptied_of_not_running, discardHeld_wch]
    · show (endCapture .fault s).wch.restarted c (endCapture .fault s).clock = _
      rw [hc]
    · cases c <;> simp [Wch.restarted, RestartCause.refillState]
    · exact endCapture_capture _ _
  · show (endCapture .fault s).wch.restarted c (endCapture .fault s).clock = _
    rw [hc]

theorem endStep_works (r : CalResult) (s : State) : Works [.weighing] [4] s (endStep r s) := by
  unfold endStep
  split
  · exact Works.refl _ _ s
  · refine Works.raised ?_ (by simp [Notice.kind])
    exact ⟨rfl, rfl, rfl, fun p hp => by cases p <;> first | rfl | exact absurd (by simp) hp, RaisesOnly.refl _ s⟩

/-- The end of a step changes only the calibration context of the channel. -/
theorem endStep_wch (r : CalResult) (s : State) :
    (endStep r s).wch = { s.wch with cal := (endStep r s).wch.cal } := by
  unfold endStep; split <;> rfl

theorem enterFault_works (c : FaultCause) (s : State) :
    Works ([.weighing] ++ s.slotParts ++ s.holdParts) [2, 3, 4, 14] s (enterFault c s) := by
  unfold enterFault
  split
  · exact ⟨rfl, rfl, rfl, fun p hp => by cases p <;> first | rfl | exact absurd (by simp) hp, RaisesOnly.refl _ _⟩
  · rename_i hf
    have h1 : Works ([.weighing] ++ s.slotParts ++ s.holdParts) [2, 3, 4, 14] s
        (endStep .aborted (endCapture .fault s)) :=
      Works.trans ((endCapture_works .fault s).mono (by simp) (by simp)) ((endStep_works .aborted _).mono (by simp) (by simp))
    have h2 : Works ([.weighing] ++ s.slotParts ++ s.holdParts) [2, 3, 4, 14] s
        { endStep .aborted (endCapture .fault s) with
          wch := (endStep .aborted (endCapture .fault s)).wch.faulted c } :=
      Works.trans h1 ⟨rfl, rfl, rfl, fun p hp => by cases p <;> first | rfl | exact absurd (by simp) hp, RaisesOnly.refl _ _⟩
    refine Works.raised ?_ (by simp [Wch.detail, Notice.kind])
    have h3 : Works ([.weighing] ++ s.slotParts ++ s.holdParts) [2, 3, 4, 14] s
        (if s.wch.capture.isSome = true then captureEmptied
          { endStep .aborted (endCapture .fault s) with
            wch := (endStep .aborted (endCapture .fault s)).wch.faulted c }
         else { endStep .aborted (endCapture .fault s) with
            wch := (endStep .aborted (endCapture .fault s)).wch.faulted c }) := by
      split
      · rename_i h
        exact Works.trans h2 ((captureEmptied_works _).mono (by simp [State.slotParts, h]) (by simp))
      · exact h2
    split
    · rename_i h
      exact Works.trans h3 ((holdLifted_works _).mono (by simp [State.holdParts, h]) (by simp))
    · exact h3

theorem leaveCal_works (s : State) :
    Works (.weighing :: .till :: .budget :: .printer :: s.slotParts) [3, 4, 14] s (leaveCal s) := by
  unfold leaveCal
  have h1 : Works (.weighing :: .till :: .budget :: .printer :: s.slotParts) [3, 4, 14] s
      { endStep .aborted s with wch := { (endStep .aborted s).wch with cal := none } } :=
    Works.trans ((endStep_works .aborted s).mono (by simp) (by simp))
      ⟨rfl, rfl, rfl, fun p hp => by cases p <;> first | rfl | exact absurd (by simp) hp, RaisesOnly.refl _ _⟩
  have hs : State.slotParts { endStep .aborted s with wch := { (endStep .aborted s).wch with cal := none } } = s.slotParts := by
    simp only [State.slotParts]; rw [endStep_wch]
  have h2 := restart_works .calLeave { endStep .aborted s with wch := { (endStep .aborted s).wch with cal := none } }
  rw [hs] at h2
  exact Works.trans (Works.trans h1 (h2.mono (by simp +contextual) (by simp)))
    ((holdLifted_works _).mono (by simp) (by simp))

/-! ## The store -/

theorem startTotals_works (s : State) : Works [.store] [] s (startTotals s) :=
  Works.of rfl rfl rfl rfl fun p hp => by cases p <;> first | rfl | exact absurd (by simp) hp

theorem startPending_works (s : State) : Works [.store] [] s (startPending s) := by
  unfold startPending
  split
  · exact startTotals_works s
  · exact Works.refl _ _ s

theorem nextWrite_works (s : State) : Works [.store] [] s (nextWrite s) := by
  unfold nextWrite
  split
  · exact startPending_works s
  · exact Works.refl _ _ s

theorem requestTotals_works (s : State) : Works [.store] [] s (requestTotals s) := by
  unfold requestTotals
  split
  · exact Works.refl _ _ s
  · split
    · exact startTotals_works s
    · exact Works.of rfl rfl rfl rfl fun p hp => by cases p <;> first | rfl | exact absurd (by simp) hp

theorem countSale_works (n : Nat) (s : State) : Works [.store] [] s (countSale n s) := by
  unfold countSale
  split
  · exact Works.refl _ _ s
  · refine Works.after (requestTotals_works _) ?_
    exact Works.of rfl rfl rfl rfl fun p hp => by cases p <;> first | rfl | exact absurd (by simp) hp
  · exact Works.of rfl rfl rfl rfl fun p hp => by cases p <;> first | rfl | exact absurd (by simp) hp

/-- The parts that the end of a commit may change: the candidates, and what leaving CAL changes (R52). -/
def State.commitParts (s : State) : List Part := [.weighing] ++ s.slotParts ++ s.holdParts

theorem commitDone_works (s : State) : Works s.commitParts [3, 4, 14] s (commitDone s) := by
  have h1 : Works [.weighing] [3, 4, 14] s (raise (.cal .commit .ok)
      { s with wch := { s.wch with cal := s.wch.cal.map fun c => { c with zero := none, span := none, ranges := none } } }) := by
    refine Works.raised ?_ (by simp [Notice.kind])
    exact ⟨rfl, rfl, rfl, fun p hp => by cases p <;> first | rfl | exact absurd (by simp) hp, RaisesOnly.refl _ s⟩
  unfold commitDone
  split
  · rename_i h
    refine Works.trans (h1.mono (by simp [State.commitParts]) (by simp)) ((leaveCal_works _).mono ?_ (by simp))
    intro p
    simp only [State.commitParts, State.holdParts, h.1, if_true]
    simp only [State.slotParts, raise, List.mem_cons, List.mem_append]
    tauto
  · exact h1.mono (by simp [State.commitParts]) (by simp)

theorem complete_works (d : WriteData) (s : State) : Works [.store] [] s { s with sst := s.sst.complete d } :=
  Works.of rfl rfl rfl rfl fun p hp => by cases p <;> first | rfl | exact absurd (by simp) hp

theorem writeDone_works (d : WriteData) (s : State) : Works (.store :: s.commitParts) [3, 4, 14, 15] s (writeDone d s) := by
  unfold writeDone
  split
  · exact (complete_works _ s).mono (by simp) (by simp)
  · exact Works.trans ((complete_works _ s).mono (by simp) (by simp))
      ((commitDone_works _).mono (fun p hp => List.mem_cons_of_mem _ hp) (by simp))
  · exact Works.trans (((complete_works _ s).mono (by simp) (by simp)).raised (by simp [Notice.kind]))
      ((commitDone_works _).mono (fun p hp => List.mem_cons_of_mem _ hp) (by simp))

/-- A completed write leaves the store as its completion says (R52, R55). -/
theorem writeDone_sst (d : WriteData) (s : State) : (writeDone d s).sst = s.sst.complete d := by
  have key : ∀ t : State, (commitDone t).sst = t.sst := fun t =>
    (commitDone_works t).2.2.2.1 .store (by
      simp only [State.commitParts, State.slotParts, State.holdParts, List.mem_append, not_or]
      refine ⟨⟨by simp, ?_⟩, ?_⟩ <;> split <;> simp)
  unfold writeDone
  split
  · rfl
  · rw [key]
  · rw [key]; rfl

theorem writeFailed_works (w : Write) (s : State) :
    Works (.store :: s.commitParts) [2, 3, 4, 14, 15] s (writeFailed w s) := by
  have h1 : Works (.store :: s.commitParts) [2, 3, 4, 14, 15] s
      (raise (.store .fault) { s with sst := { s.sst with state := .fault, inFlight := none, pendingTotals := false } }) := by
    refine Works.raised ?_ (by simp [Notice.kind])
    exact ⟨rfl, rfl, rfl, fun p hp => by cases p <;> first | rfl | exact absurd (by simp) hp, RaisesOnly.refl _ s⟩
  have h2 : Works (.store :: s.commitParts) [2, 3, 4, 14, 15] s (enterFault .store
      (raise (.store .fault) { s with sst := { s.sst with state := .fault, inFlight := none, pendingTotals := false } })) :=
    Works.trans h1 ((enterFault_works _ _).mono (fun p hp => List.mem_cons_of_mem _ hp) (by simp))
  unfold writeFailed
  split
  · exact h2
  · exact h2.raised (by simp [Notice.kind])
  · exact h2.raised (by simp [Notice.kind])

/-- A write that timed out leaves the array, its word and the image (R55). -/
theorem writeFailed_sst (w : Write) (s : State) :
    (writeFailed w s).sst = { s.sst with state := .fault, inFlight := none, pendingTotals := false } := by
  have key : ∀ t : State, (enterFault .store t).sst = t.sst := fun t =>
    (enterFault_works .store t).2.2.2.1 .store (by
      simp only [State.slotParts, State.holdParts, List.mem_append, not_or]
      refine ⟨⟨by simp, ?_⟩, ?_⟩ <;> split <;> simp)
  unfold writeFailed
  split
  · rw [key]; rfl
  · show (enterFault _ _).sst = _
    rw [key]; rfl
  · show (enterFault _ _).sst = _
    rw [key]; rfl

end Sys2Proof.Machine
end

