-- ==== Sys2Proof/Laws/SaleUnit.lean ====
section
/-! SUPPORT. What the shared operations of the sale record unit may change (`Works`), and what they leave of the sales but
for what the composer prints. -/

namespace Sys2Proof.Machine

open Sys2Proof

/-! ## What the printer may change depends on the printer, the budget and the tables alone -/

theorem printParts_eq {s t : State} (hp : t.pen = s.pen) (hb : t.pbu = s.pbu) (ht : t.tbs = s.tbs) :
    t.printParts = s.printParts := by
  simp [State.printParts, State.grantParts, State.printTablesWait, hp, hb, ht]

theorem printKinds_eq {s t : State} (hp : t.pen = s.pen) : t.printKinds = s.printKinds := by
  simp [State.printKinds, hp]

theorem printer_mem_printParts (s : State) : Part.printer ∈ s.printParts := by
  unfold State.printParts; split <;> simp

theorem printParts_sub (s : State) :
    ∀ p ∈ s.printParts, p ∈ [Part.printer, .budget, .till, .weighing, .tables] := by
  intro p
  unfold State.printParts State.grantParts
  split
  · simp only [List.mem_append]
    rintro ((h | h) | h)
    · revert h; simp; tauto
    · split at h <;> revert h <;> simp <;> tauto
    · split at h <;> revert h <;> simp; tauto
  · simp +contextual

theorem printKinds_sub (s : State) : ∀ k ∈ s.printKinds, k ∈ [2, 12, 13] := by
  intro k; unfold State.printKinds; split <;> simp +contextual

/-- The composer acts after other work that leaves the printer, the budget and the tables alone. -/
theorem Works.composed {ps : List Part} {ks : List Nat} {s t : State} (h : Works ps ks s t) (hp : t.pen = s.pen)
    (hb : t.pbu = s.pbu) (ht : t.tbs = s.tbs) :
    Works (.sale :: ps ++ s.printParts) (ks ++ s.printKinds) s (composerAct t) := by
  have h2 := composerAct_works t
  rw [printParts_eq hp hb ht, printKinds_eq hp] at h2
  refine (h.mono ?_ ?_).trans (h2.mono ?_ ?_) <;> intro x hx
  · exact List.mem_append_left _ (List.mem_cons_of_mem _ hx)
  · exact List.mem_append_left _ hx
  · rcases List.mem_cons.1 hx with e | e
    · simp [e]
    · exact List.mem_append_right _ e
  · exact List.mem_append_right _ hx

/-! ## Lines -/

theorem setOpen_works (o : Sale) (s : State) : Works [.sale] [] s (setOpen o s) :=
  Works.of rfl rfl rfl rfl fun p hp => by cases p <;> first | rfl | exact absurd (by simp) hp

/-- The sale as a line admitted to it leaves it. -/
def Sale.withLine (o : Sale) (l : Line) (r : Option ReferralReason) (s : State) : Sale :=
  match r with
  | none => o.append l
  | some r => addReferral r s (o.append l)

theorem addLine_works (o : Sale) (l : Line) (r : Option ReferralReason) (s : State) :
    Works (.sale :: s.printParts) (7 :: s.printKinds) s (addLine o l r s) := by
  unfold addLine
  split
  · exact ((setOpen_works _ s).composed rfl rfl rfl).mono (by simp) (by simp +contextual)
  · rename_i r
    have h : Works [.sale] [7] s
        (raiseReferral (addReferral r s (o.append l)) (setOpen (addReferral r s (o.append l)) s)) :=
      ((setOpen_works _ s).mono (fun _ h => h) (by simp)).raised (by simp [Notice.kind])
    exact (h.composed rfl rfl rfl).mono (by simp) (by simp)

theorem addLine_posted_works (o : Sale) (l : Line) (s : State) :
    Works (.sale :: s.printParts) s.printKinds s (addLine o l none s) :=
  ((setOpen_works _ s).composed rfl rfl rfl).mono (by simp) (by simp)

theorem addLine_unprinted (o : Sale) (l : Line) (r : Option ReferralReason) (s : State) :
    (addLine o l r s).sru.unprinted = ({ s.sru with openSlot := some (o.withLine l r s) } : Sru).unprinted := by
  unfold addLine Sale.withLine
  split <;> rw [composerAct_unprinted] <;> rfl

/-! ## Slots -/

theorem enterClosing_works (s : State) : Works [.sale, .tables] [13] s (enterClosing s) := by
  unfold enterClosing
  split
  · split
    · refine Works.after ((swapSlotTables_works _).mono (by simp) (by simp)) ?_
      exact ⟨rfl, rfl, rfl, fun p hp => by cases p <;> first | rfl | exact absurd (by simp) hp, RaisesOnly.refl _ _⟩
    · exact Works.refl _ _ s
  · exact Works.refl _ _ s

theorem trySwap_sru (n : TableName) (s : State) : (trySwap n s).sru = s.sru := by
  unfold trySwap; split <;> rfl

theorem enterClosing_sru (s : State) : (enterClosing s).sru = s.sru.entered := by
  unfold enterClosing Sru.entered
  rcases hc : s.sru.closing with _ | c
  · rcases ho : s.sru.openSlot with _ | o
    · rfl
    · dsimp only
      cases o.closes with
      | some k =>
        simp only [swapSlotTables]
        rw [trySwap_sru, trySwap_sru]
      | none => rfl
  · rfl

theorem leaveClosing_works (s : State) : Works [.sale] [9] s (leaveClosing s) := by
  unfold leaveClosing
  split
  · exact Works.refl _ _ s
  · split
    · refine Works.raised ?_ (by simp [Notice.kind])
      exact ⟨rfl, rfl, rfl, fun p hp => by cases p <;> first | rfl | exact absurd (by simp) hp, RaisesOnly.refl _ _⟩
    · refine Works.raised ?_ (by simp [Notice.kind])
      exact ⟨rfl, rfl, rfl, fun p hp => by cases p <;> first | rfl | exact absurd (by simp) hp, RaisesOnly.refl _ _⟩

theorem discardClosing_works (s : State) : Works [.sale, .tables] [9, 13] s (discardClosing s) := by
  unfold discardClosing
  split
  · exact Works.refl _ _ s
  · refine Works.after ((enterClosing_works _).mono (by simp) (by simp)) ?_
    refine Works.after ((leaveClosing_works _).mono (by simp) (by simp)) ?_
    exact ⟨rfl, rfl, rfl, fun p hp => by cases p <;> first | rfl | exact absurd (by simp) hp, RaisesOnly.refl _ _⟩

theorem cutCompleted_works (tag : Nat) (s : State) :
    Works [.sale, .tables, .printer] [9, 13] s (cutCompleted tag s) := by
  unfold cutCompleted
  split
  · exact (((leaveClosing_works s).mono (by simp) (by simp)).trans ((enterClosing_works _).mono (by simp) (by simp))).trans
      ((composerFill_works _).mono (by simp) (by simp))
  · exact Works.refl _ _ s

/-! ## Capture results and embedded lines -/

theorem postWeighed_works (c : Capture) (g : Figures) (s : State) :
    Works (.sale :: s.printParts) (7 :: s.printKinds) s (postWeighed c g s).1 := by
  unfold postWeighed
  split
  · exact Works.refl _ _ s
  · simp only
    split
    · exact addLine_works _ _ _ s
    · exact Works.refl _ _ s

theorem offerEmbedded_works (plu amount : Nat) (s : State) :
    Works (.sale :: s.printParts) (7 :: s.printKinds) s (offerEmbedded plu amount s).1 := by
  unfold offerEmbedded
  split
  · exact Works.refl _ _ s
  · split
    · exact Works.refl _ _ s
    · simp only
      split
      · exact addLine_works _ _ _ s
      · exact Works.refl _ _ s

/-! ## Settlement -/

theorem clearCard_works (s : State) : Works [.stripe] [] s (clearCard s) :=
  Works.of rfl rfl rfl rfl fun p hp => by cases p <;> first | rfl | exact absurd (by simp) hp

theorem declineCard_works (o : Sale) (s : State) :
    Works (.sale :: .stripe :: s.printParts) s.printKinds s (declineCard o s) := by
  have h : Works [.sale, .stripe] [] s (clearCard (setOpen o.declined s)) :=
    ((setOpen_works _ s).mono (by simp) (by simp)).trans ((clearCard_works _).mono (by simp) (by simp))
  exact (h.composed rfl rfl rfl).mono (by simp) (by simp)

theorem declineCard_unprinted (o : Sale) (s : State) :
    (declineCard o s).sru.unprinted = ({ s.sru with openSlot := some o.declined } : Sru).unprinted := by
  rw [declineCard, composerAct_unprinted]; rfl

/-- The settlement before the composer acts. -/
def settleBody (o : Sale) (s : State) : State :=
  let settled := { o with state := .settled, saleNumber := s.sst.nextNumber o.itemTotal.toNat }
  let counted := setOpen settled (countSale o.itemTotal.toNat s)
  enterClosing (raiseSale settled (.live .settled)
    (if o.lines.any fun l => l.kind == .cash && l.state == .posted then issueAuth (.settledCash o.tag) counted
     else counted))

theorem settle_eq (o : Sale) (s : State) : settle o s = composerAct (settleBody o s) := rfl

theorem settleBody_works (o : Sale) (s : State) :
    Works [.weighing, .store, .sale, .till, .printer, .budget, .tables] [9, 13] s (settleBody o s) := by
  unfold settleBody
  have h1 : Works [.weighing, .store, .sale, .till, .printer, .budget, .tables] [9, 13] s
      (setOpen { o with state := .settled, saleNumber := s.sst.nextNumber o.itemTotal.toNat }
        (countSale o.itemTotal.toNat s)) :=
    ((countSale_works _ s).mono (by simp) (by simp)).trans ((setOpen_works _ _).mono (by simp) (by simp))
  refine Works.after ((enterClosing_works _).mono (by simp) (by simp)) ?_
  refine Works.raised ?_ (by simp [Notice.kind])
  split
  · exact h1.trans ((issueAuth_works _ _).mono (by simp) (by simp))
  · exact h1

theorem settle_works (o : Sale) (s : State) :
    Works [.weighing, .store, .sale, .till, .printer, .budget, .tables] [2, 9, 12, 13] s (settle o s) := by
  rw [settle_eq]
  refine ((settleBody_works o s).mono (fun _ h => h) (by simp)).trans ((composerAct_works _).mono ?_ ?_) <;> intro x hx
  · rcases List.mem_cons.1 hx with e | e
    · simp [e]
    · have := printParts_sub _ x e
      simp at this ⊢; tauto
  · have := printKinds_sub _ x hx
    simp at this ⊢; tauto

end Sys2Proof.Machine
end

