-- ==== Sys2Proof/Laws/State.lean ====
section
/-! SUPPORT. What each update of State leaves alone: one lemma per field per update, true by rfl, so that no proof unfolds
an update; and what it writes. -/

namespace Sys2Proof.Machine

open Sys2Proof

/-! ## `raise`: a raised notice (R195) -/

@[simp] theorem raise_clock (n : Notice) (s : State) : (raise n s).clock = s.clock := rfl
@[simp] theorem raise_free (n : Notice) (s : State) : (raise n s).free = s.free := rfl
@[simp] theorem raise_pins (n : Notice) (s : State) : (raise n s).pins = s.pins := rfl
@[simp] theorem raise_wch (n : Notice) (s : State) : (raise n s).wch = s.wch := rfl
@[simp] theorem raise_sst (n : Notice) (s : State) : (raise n s).sst = s.sst := rfl
@[simp] theorem raise_sru (n : Notice) (s : State) : (raise n s).sru = s.sru := rfl
@[simp] theorem raise_sdc (n : Notice) (s : State) : (raise n s).sdc = s.sdc := rfl
@[simp] theorem raise_tlc (n : Notice) (s : State) : (raise n s).tlc = s.tlc := rfl
@[simp] theorem raise_pen (n : Notice) (s : State) : (raise n s).pen = s.pen := rfl
@[simp] theorem raise_pbu (n : Notice) (s : State) : (raise n s).pbu = s.pbu := rfl
@[simp] theorem raise_acp (n : Notice) (s : State) : (raise n s).acp = s.acp := rfl
@[simp] theorem raise_tbs (n : Notice) (s : State) : (raise n s).tbs = s.tbs := rfl
@[simp] theorem raise_pending (n : Notice) (s : State) : (raise n s).pending = s.pending := rfl
@[simp] theorem raise_lli_phase (n : Notice) (s : State) : (raise n s).lli.phase = s.lli.phase := rfl
@[simp] theorem raise_lli_rxLength (n : Notice) (s : State) : (raise n s).lli.rxLength = s.lli.rxLength := rfl
@[simp] theorem raise_lli_rxBody (n : Notice) (s : State) : (raise n s).lli.rxBody = s.lli.rxBody := rfl
@[simp] theorem raise_lli_rxCheck (n : Notice) (s : State) : (raise n s).lli.rxCheck = s.lli.rxCheck := rfl
@[simp] theorem raise_lli_requests (n : Notice) (s : State) : (raise n s).lli.requests = s.lli.requests := rfl
@[simp] theorem raise_lli_responses (n : Notice) (s : State) : (raise n s).lli.responses = s.lli.responses := rfl
@[simp] theorem raise_lli_accUps (n : Notice) (s : State) : (raise n s).lli.accUps = s.lli.accUps := rfl
@[simp] theorem raise_lli_sending (n : Notice) (s : State) : (raise n s).lli.sending = s.lli.sending := rfl
@[simp] theorem raise_lli_notices (n : Notice) (s : State) : (raise n s).lli.notices = insertNotice n s.lli.notices := rfl
@[simp] theorem raise_lli_mask (n : Notice) (s : State) : (raise n s).lli.mask = s.lli.mask := rfl
@[simp] theorem raise_lli_linkError (n : Notice) (s : State) : (raise n s).lli.linkError = s.lli.linkError := rfl
@[simp] theorem raise_lli_lane (n : Notice) (s : State) : (raise n s).lli.lane = s.lli.lane := rfl
@[simp] theorem raise_lli_resetCause (n : Notice) (s : State) : (raise n s).lli.resetCause = s.lli.resetCause := rfl
@[simp] theorem raise_lli_startupDue (n : Notice) (s : State) : (raise n s).lli.startupDue = s.lli.startupDue := rfl
@[simp] theorem raise_lli_resetAnswer (n : Notice) (s : State) : (raise n s).lli.resetAnswer = s.lli.resetAnswer := rfl
@[simp] theorem raise_lli_pinReset (n : Notice) (s : State) : (raise n s).lli.pinReset = s.lli.pinReset := rfl
@[simp] theorem raise_lli_params (n : Notice) (s : State) : (raise n s).lli.params = s.lli.params := rfl

/-! ## `linkError`: the link error flag (R198) -/

@[simp] theorem linkError_clock (s : State) : (linkError s).clock = s.clock := rfl
@[simp] theorem linkError_free (s : State) : (linkError s).free = s.free := rfl
@[simp] theorem linkError_pins (s : State) : (linkError s).pins = s.pins := rfl
@[simp] theorem linkError_wch (s : State) : (linkError s).wch = s.wch := rfl
@[simp] theorem linkError_sst (s : State) : (linkError s).sst = s.sst := rfl
@[simp] theorem linkError_sru (s : State) : (linkError s).sru = s.sru := rfl
@[simp] theorem linkError_sdc (s : State) : (linkError s).sdc = s.sdc := rfl
@[simp] theorem linkError_tlc (s : State) : (linkError s).tlc = s.tlc := rfl
@[simp] theorem linkError_pen (s : State) : (linkError s).pen = s.pen := rfl
@[simp] theorem linkError_pbu (s : State) : (linkError s).pbu = s.pbu := rfl
@[simp] theorem linkError_acp (s : State) : (linkError s).acp = s.acp := rfl
@[simp] theorem linkError_tbs (s : State) : (linkError s).tbs = s.tbs := rfl
@[simp] theorem linkError_pending (s : State) : (linkError s).pending = s.pending := rfl
@[simp] theorem linkError_lli_phase (s : State) : (linkError s).lli.phase = s.lli.phase := rfl
@[simp] theorem linkError_lli_rxLength (s : State) : (linkError s).lli.rxLength = s.lli.rxLength := rfl
@[simp] theorem linkError_lli_rxBody (s : State) : (linkError s).lli.rxBody = s.lli.rxBody := rfl
@[simp] theorem linkError_lli_rxCheck (s : State) : (linkError s).lli.rxCheck = s.lli.rxCheck := rfl
@[simp] theorem linkError_lli_requests (s : State) : (linkError s).lli.requests = s.lli.requests := rfl
@[simp] theorem linkError_lli_responses (s : State) : (linkError s).lli.responses = s.lli.responses := rfl
@[simp] theorem linkError_lli_accUps (s : State) : (linkError s).lli.accUps = s.lli.accUps := rfl
@[simp] theorem linkError_lli_sending (s : State) : (linkError s).lli.sending = s.lli.sending := rfl
@[simp] theorem linkError_lli_notices (s : State) : (linkError s).lli.notices = s.lli.notices := rfl
@[simp] theorem linkError_lli_mask (s : State) : (linkError s).lli.mask = s.lli.mask := rfl
@[simp] theorem linkError_lli_linkError (s : State) : (linkError s).lli.linkError = true := rfl
@[simp] theorem linkError_lli_lane (s : State) : (linkError s).lli.lane = s.lli.lane := rfl
@[simp] theorem linkError_lli_resetCause (s : State) : (linkError s).lli.resetCause = s.lli.resetCause := rfl
@[simp] theorem linkError_lli_startupDue (s : State) : (linkError s).lli.startupDue = s.lli.startupDue := rfl
@[simp] theorem linkError_lli_resetAnswer (s : State) : (linkError s).lli.resetAnswer = s.lli.resetAnswer := rfl
@[simp] theorem linkError_lli_pinReset (s : State) : (linkError s).lli.pinReset = s.lli.pinReset := rfl
@[simp] theorem linkError_lli_params (s : State) : (linkError s).lli.params = s.lli.params := rfl

/-! ## `reach`: a due time that has come (log 4) -/

@[simp] theorem reach_free (due : Nat) (s : State) : (reach due s).free = s.free := rfl
@[simp] theorem reach_pins (due : Nat) (s : State) : (reach due s).pins = s.pins := rfl
@[simp] theorem reach_lli (due : Nat) (s : State) : (reach due s).lli = s.lli := rfl
@[simp] theorem reach_wch (due : Nat) (s : State) : (reach due s).wch = s.wch := rfl
@[simp] theorem reach_sst (due : Nat) (s : State) : (reach due s).sst = s.sst := rfl
@[simp] theorem reach_sru (due : Nat) (s : State) : (reach due s).sru = s.sru := rfl
@[simp] theorem reach_sdc (due : Nat) (s : State) : (reach due s).sdc = s.sdc := rfl
@[simp] theorem reach_tlc (due : Nat) (s : State) : (reach due s).tlc = s.tlc := rfl
@[simp] theorem reach_pen (due : Nat) (s : State) : (reach due s).pen = s.pen := rfl
@[simp] theorem reach_pbu (due : Nat) (s : State) : (reach due s).pbu = s.pbu := rfl
@[simp] theorem reach_acp (due : Nat) (s : State) : (reach due s).acp = s.acp := rfl
@[simp] theorem reach_tbs (due : Nat) (s : State) : (reach due s).tbs = s.tbs := rfl
@[simp] theorem reach_pending (due : Nat) (s : State) : (reach due s).pending = s.pending := rfl
@[simp] theorem reach_clock (due : Nat) (s : State) : (reach due s).clock = max s.clock due := rfl

/-! ## `respond`: a response (R193) -/

@[simp] theorem respond_clock (r : Response) (s : State) : (respond r s).clock = s.clock := rfl
@[simp] theorem respond_free (r : Response) (s : State) : (respond r s).free = s.free := rfl
@[simp] theorem respond_pins (r : Response) (s : State) : (respond r s).pins = s.pins := rfl
@[simp] theorem respond_wch (r : Response) (s : State) : (respond r s).wch = s.wch := rfl
@[simp] theorem respond_sst (r : Response) (s : State) : (respond r s).sst = s.sst := rfl
@[simp] theorem respond_sru (r : Response) (s : State) : (respond r s).sru = s.sru := rfl
@[simp] theorem respond_sdc (r : Response) (s : State) : (respond r s).sdc = s.sdc := rfl
@[simp] theorem respond_tlc (r : Response) (s : State) : (respond r s).tlc = s.tlc := rfl
@[simp] theorem respond_pen (r : Response) (s : State) : (respond r s).pen = s.pen := rfl
@[simp] theorem respond_pbu (r : Response) (s : State) : (respond r s).pbu = s.pbu := rfl
@[simp] theorem respond_acp (r : Response) (s : State) : (respond r s).acp = s.acp := rfl
@[simp] theorem respond_tbs (r : Response) (s : State) : (respond r s).tbs = s.tbs := rfl
@[simp] theorem respond_pending (r : Response) (s : State) : (respond r s).pending = s.pending := rfl
@[simp] theorem respond_lli_phase (r : Response) (s : State) : (respond r s).lli.phase = s.lli.phase := rfl
@[simp] theorem respond_lli_rxLength (r : Response) (s : State) : (respond r s).lli.rxLength = s.lli.rxLength := rfl
@[simp] theorem respond_lli_rxBody (r : Response) (s : State) : (respond r s).lli.rxBody = s.lli.rxBody := rfl
@[simp] theorem respond_lli_rxCheck (r : Response) (s : State) : (respond r s).lli.rxCheck = s.lli.rxCheck := rfl
@[simp] theorem respond_lli_requests (r : Response) (s : State) : (respond r s).lli.requests = s.lli.requests := rfl
@[simp] theorem respond_lli_responses (r : Response) (s : State) : (respond r s).lli.responses = s.lli.responses ++ [r] := rfl
@[simp] theorem respond_lli_accUps (r : Response) (s : State) : (respond r s).lli.accUps = s.lli.accUps := rfl
@[simp] theorem respond_lli_sending (r : Response) (s : State) : (respond r s).lli.sending = s.lli.sending := rfl
@[simp] theorem respond_lli_notices (r : Response) (s : State) : (respond r s).lli.notices = s.lli.notices := rfl
@[simp] theorem respond_lli_mask (r : Response) (s : State) : (respond r s).lli.mask = s.lli.mask := rfl
@[simp] theorem respond_lli_linkError (r : Response) (s : State) : (respond r s).lli.linkError = s.lli.linkError := rfl
@[simp] theorem respond_lli_lane (r : Response) (s : State) : (respond r s).lli.lane = s.lli.lane := rfl
@[simp] theorem respond_lli_resetCause (r : Response) (s : State) : (respond r s).lli.resetCause = s.lli.resetCause := rfl
@[simp] theorem respond_lli_startupDue (r : Response) (s : State) : (respond r s).lli.startupDue = s.lli.startupDue := rfl
@[simp] theorem respond_lli_resetAnswer (r : Response) (s : State) : (respond r s).lli.resetAnswer = s.lli.resetAnswer := rfl
@[simp] theorem respond_lli_pinReset (r : Response) (s : State) : (respond r s).lli.pinReset = s.lli.pinReset := rfl
@[simp] theorem respond_lli_params (r : Response) (s : State) : (respond r s).lli.params = s.lli.params := rfl

/-! ## `popRequest`: a request taken from the queue (R193) -/

@[simp] theorem popRequest_clock (s : State) : (popRequest s).clock = s.clock := rfl
@[simp] theorem popRequest_free (s : State) : (popRequest s).free = s.free := rfl
@[simp] theorem popRequest_pins (s : State) : (popRequest s).pins = s.pins := rfl
@[simp] theorem popRequest_wch (s : State) : (popRequest s).wch = s.wch := rfl
@[simp] theorem popRequest_sst (s : State) : (popRequest s).sst = s.sst := rfl
@[simp] theorem popRequest_sru (s : State) : (popRequest s).sru = s.sru := rfl
@[simp] theorem popRequest_sdc (s : State) : (popRequest s).sdc = s.sdc := rfl
@[simp] theorem popRequest_tlc (s : State) : (popRequest s).tlc = s.tlc := rfl
@[simp] theorem popRequest_pen (s : State) : (popRequest s).pen = s.pen := rfl
@[simp] theorem popRequest_pbu (s : State) : (popRequest s).pbu = s.pbu := rfl
@[simp] theorem popRequest_acp (s : State) : (popRequest s).acp = s.acp := rfl
@[simp] theorem popRequest_tbs (s : State) : (popRequest s).tbs = s.tbs := rfl
@[simp] theorem popRequest_pending (s : State) : (popRequest s).pending = s.pending := rfl
@[simp] theorem popRequest_lli_phase (s : State) : (popRequest s).lli.phase = s.lli.phase := rfl
@[simp] theorem popRequest_lli_rxLength (s : State) : (popRequest s).lli.rxLength = s.lli.rxLength := rfl
@[simp] theorem popRequest_lli_rxBody (s : State) : (popRequest s).lli.rxBody = s.lli.rxBody := rfl
@[simp] theorem popRequest_lli_rxCheck (s : State) : (popRequest s).lli.rxCheck = s.lli.rxCheck := rfl
@[simp] theorem popRequest_lli_requests (s : State) : (popRequest s).lli.requests = s.lli.requests.tail := rfl
@[simp] theorem popRequest_lli_responses (s : State) : (popRequest s).lli.responses = s.lli.responses := rfl
@[simp] theorem popRequest_lli_accUps (s : State) : (popRequest s).lli.accUps = s.lli.accUps := rfl
@[simp] theorem popRequest_lli_sending (s : State) : (popRequest s).lli.sending = s.lli.sending := rfl
@[simp] theorem popRequest_lli_notices (s : State) : (popRequest s).lli.notices = s.lli.notices := rfl
@[simp] theorem popRequest_lli_mask (s : State) : (popRequest s).lli.mask = s.lli.mask := rfl
@[simp] theorem popRequest_lli_linkError (s : State) : (popRequest s).lli.linkError = s.lli.linkError := rfl
@[simp] theorem popRequest_lli_lane (s : State) : (popRequest s).lli.lane = s.lli.lane := rfl
@[simp] theorem popRequest_lli_resetCause (s : State) : (popRequest s).lli.resetCause = s.lli.resetCause := rfl
@[simp] theorem popRequest_lli_startupDue (s : State) : (popRequest s).lli.startupDue = s.lli.startupDue := rfl
@[simp] theorem popRequest_lli_resetAnswer (s : State) : (popRequest s).lli.resetAnswer = s.lli.resetAnswer := rfl
@[simp] theorem popRequest_lli_pinReset (s : State) : (popRequest s).lli.pinReset = s.lli.pinReset := rfl
@[simp] theorem popRequest_lli_params (s : State) : (popRequest s).lli.params = s.lli.params := rfl

/-! ## `openWindow`: the disturbance window opened (R18) -/

@[simp] theorem openWindow_clock (s : State) : (openWindow s).clock = s.clock := rfl
@[simp] theorem openWindow_free (s : State) : (openWindow s).free = s.free := rfl
@[simp] theorem openWindow_pins (s : State) : (openWindow s).pins = s.pins := rfl
@[simp] theorem openWindow_lli (s : State) : (openWindow s).lli = s.lli := rfl
@[simp] theorem openWindow_sst (s : State) : (openWindow s).sst = s.sst := rfl
@[simp] theorem openWindow_sru (s : State) : (openWindow s).sru = s.sru := rfl
@[simp] theorem openWindow_sdc (s : State) : (openWindow s).sdc = s.sdc := rfl
@[simp] theorem openWindow_tlc (s : State) : (openWindow s).tlc = s.tlc := rfl
@[simp] theorem openWindow_pen (s : State) : (openWindow s).pen = s.pen := rfl
@[simp] theorem openWindow_pbu (s : State) : (openWindow s).pbu = s.pbu := rfl
@[simp] theorem openWindow_acp (s : State) : (openWindow s).acp = s.acp := rfl
@[simp] theorem openWindow_tbs (s : State) : (openWindow s).tbs = s.tbs := rfl
@[simp] theorem openWindow_pending (s : State) : (openWindow s).pending = s.pending := rfl
@[simp] theorem openWindow_wch_window (s : State) : (openWindow s).wch.window = .opened none := rfl
@[simp] theorem openWindow_wch_state (s : State) : (openWindow s).wch.state = s.wch.state := rfl
@[simp] theorem openWindow_wch_faultCause (s : State) : (openWindow s).wch.faultCause = s.wch.faultCause := rfl
@[simp] theorem openWindow_wch_ring (s : State) : (openWindow s).wch.ring = s.wch.ring := rfl
@[simp] theorem openWindow_wch_count (s : State) : (openWindow s).wch.count = s.wch.count := rfl
@[simp] theorem openWindow_wch_refill (s : State) : (openWindow s).wch.refill = s.wch.refill := rfl
@[simp] theorem openWindow_wch_watch (s : State) : (openWindow s).wch.watch = s.wch.watch := rfl
@[simp] theorem openWindow_wch_sampleDue (s : State) : (openWindow s).wch.sampleDue = s.wch.sampleDue := rfl
@[simp] theorem openWindow_wch_last (s : State) : (openWindow s).wch.last = s.wch.last := rfl
@[simp] theorem openWindow_wch_zo (s : State) : (openWindow s).wch.zo = s.wch.zo := rfl
@[simp] theorem openWindow_wch_zi (s : State) : (openWindow s).wch.zi = s.wch.zi := rfl
@[simp] theorem openWindow_wch_stabRef (s : State) : (openWindow s).wch.stabRef = s.wch.stabRef := rfl
@[simp] theorem openWindow_wch_stabCount (s : State) : (openWindow s).wch.stabCount = s.wch.stabCount := rfl
@[simp] theorem openWindow_wch_ind (s : State) : (openWindow s).wch.ind = s.wch.ind := rfl
@[simp] theorem openWindow_wch_zeroLimit (s : State) : (openWindow s).wch.zeroLimit = s.wch.zeroLimit := rfl
@[simp] theorem openWindow_wch_zeroOut (s : State) : (openWindow s).wch.zeroOut = s.wch.zeroOut := rfl
@[simp] theorem openWindow_wch_trackDue (s : State) : (openWindow s).wch.trackDue = s.wch.trackDue := rfl
@[simp] theorem openWindow_wch_tare (s : State) : (openWindow s).wch.tare = s.wch.tare := rfl
@[simp] theorem openWindow_wch_capture (s : State) : (openWindow s).wch.capture = s.wch.capture := rfl
@[simp] theorem openWindow_wch_interlock (s : State) : (openWindow s).wch.interlock = s.wch.interlock := rfl
@[simp] theorem openWindow_wch_lateCancel (s : State) : (openWindow s).wch.lateCancel = s.wch.lateCancel := rfl
@[simp] theorem openWindow_wch_testOffset (s : State) : (openWindow s).wch.testOffset = s.wch.testOffset := rfl
@[simp] theorem openWindow_wch_calSwitchClosed (s : State) : (openWindow s).wch.calSwitchClosed = s.wch.calSwitchClosed := rfl

/-! ## `startTotals`: a TOTALS write begun (R55) -/

@[simp] theorem startTotals_clock (s : State) : (startTotals s).clock = s.clock := rfl
@[simp] theorem startTotals_free (s : State) : (startTotals s).free = s.free := rfl
@[simp] theorem startTotals_pins (s : State) : (startTotals s).pins = s.pins := rfl
@[simp] theorem startTotals_lli (s : State) : (startTotals s).lli = s.lli := rfl
@[simp] theorem startTotals_wch (s : State) : (startTotals s).wch = s.wch := rfl
@[simp] theorem startTotals_sru (s : State) : (startTotals s).sru = s.sru := rfl
@[simp] theorem startTotals_sdc (s : State) : (startTotals s).sdc = s.sdc := rfl
@[simp] theorem startTotals_tlc (s : State) : (startTotals s).tlc = s.tlc := rfl
@[simp] theorem startTotals_pen (s : State) : (startTotals s).pen = s.pen := rfl
@[simp] theorem startTotals_pbu (s : State) : (startTotals s).pbu = s.pbu := rfl
@[simp] theorem startTotals_acp (s : State) : (startTotals s).acp = s.acp := rfl
@[simp] theorem startTotals_tbs (s : State) : (startTotals s).tbs = s.tbs := rfl
@[simp] theorem startTotals_pending (s : State) : (startTotals s).pending = s.pending := rfl
@[simp] theorem startTotals_sst_pendingTotals (s : State) : (startTotals s).sst.pendingTotals = false := rfl
@[simp] theorem startTotals_sst_array (s : State) : (startTotals s).sst.array = s.sst.array := rfl
@[simp] theorem startTotals_sst_word (s : State) : (startTotals s).sst.word = s.sst.word := rfl
@[simp] theorem startTotals_sst_image (s : State) : (startTotals s).sst.image = s.sst.image := rfl
@[simp] theorem startTotals_sst_state (s : State) : (startTotals s).sst.state = s.sst.state := rfl

/-! ## `setOpen`: the sale of the open slot replaced (R58) -/

@[simp] theorem setOpen_clock (o : Sale) (s : State) : (setOpen o s).clock = s.clock := rfl
@[simp] theorem setOpen_free (o : Sale) (s : State) : (setOpen o s).free = s.free := rfl
@[simp] theorem setOpen_pins (o : Sale) (s : State) : (setOpen o s).pins = s.pins := rfl
@[simp] theorem setOpen_lli (o : Sale) (s : State) : (setOpen o s).lli = s.lli := rfl
@[simp] theorem setOpen_wch (o : Sale) (s : State) : (setOpen o s).wch = s.wch := rfl
@[simp] theorem setOpen_sst (o : Sale) (s : State) : (setOpen o s).sst = s.sst := rfl
@[simp] theorem setOpen_sdc (o : Sale) (s : State) : (setOpen o s).sdc = s.sdc := rfl
@[simp] theorem setOpen_tlc (o : Sale) (s : State) : (setOpen o s).tlc = s.tlc := rfl
@[simp] theorem setOpen_pen (o : Sale) (s : State) : (setOpen o s).pen = s.pen := rfl
@[simp] theorem setOpen_pbu (o : Sale) (s : State) : (setOpen o s).pbu = s.pbu := rfl
@[simp] theorem setOpen_acp (o : Sale) (s : State) : (setOpen o s).acp = s.acp := rfl
@[simp] theorem setOpen_tbs (o : Sale) (s : State) : (setOpen o s).tbs = s.tbs := rfl
@[simp] theorem setOpen_pending (o : Sale) (s : State) : (setOpen o s).pending = s.pending := rfl
@[simp] theorem setOpen_sru_openSlot (o : Sale) (s : State) : (setOpen o s).sru.openSlot = some o := rfl
@[simp] theorem setOpen_sru_closing (o : Sale) (s : State) : (setOpen o s).sru.closing = s.sru.closing := rfl
@[simp] theorem setOpen_sru_stack (o : Sale) (s : State) : (setOpen o s).sru.stack = s.sru.stack := rfl
@[simp] theorem setOpen_sru_nextTag (o : Sale) (s : State) : (setOpen o s).sru.nextTag = s.sru.nextTag := rfl
@[simp] theorem setOpen_sru_lateAnswer (o : Sale) (s : State) : (setOpen o s).sru.lateAnswer = s.sru.lateAnswer := rfl

/-! ## `clearCard`: the card record slot emptied (R100) -/

@[simp] theorem clearCard_clock (s : State) : (clearCard s).clock = s.clock := rfl
@[simp] theorem clearCard_free (s : State) : (clearCard s).free = s.free := rfl
@[simp] theorem clearCard_pins (s : State) : (clearCard s).pins = s.pins := rfl
@[simp] theorem clearCard_lli (s : State) : (clearCard s).lli = s.lli := rfl
@[simp] theorem clearCard_wch (s : State) : (clearCard s).wch = s.wch := rfl
@[simp] theorem clearCard_sst (s : State) : (clearCard s).sst = s.sst := rfl
@[simp] theorem clearCard_sru (s : State) : (clearCard s).sru = s.sru := rfl
@[simp] theorem clearCard_tlc (s : State) : (clearCard s).tlc = s.tlc := rfl
@[simp] theorem clearCard_pen (s : State) : (clearCard s).pen = s.pen := rfl
@[simp] theorem clearCard_pbu (s : State) : (clearCard s).pbu = s.pbu := rfl
@[simp] theorem clearCard_acp (s : State) : (clearCard s).acp = s.acp := rfl
@[simp] theorem clearCard_tbs (s : State) : (clearCard s).tbs = s.tbs := rfl
@[simp] theorem clearCard_pending (s : State) : (clearCard s).pending = s.pending := rfl
@[simp] theorem clearCard_sdc_slot (s : State) : (clearCard s).sdc.slot = .empty := rfl
@[simp] theorem clearCard_sdc_trackA (s : State) : (clearCard s).sdc.trackA = s.sdc.trackA := rfl
@[simp] theorem clearCard_sdc_trackB (s : State) : (clearCard s).sdc.trackB = s.sdc.trackB := rfl
@[simp] theorem clearCard_sdc_swipe (s : State) : (clearCard s).sdc.swipe = s.sdc.swipe := rfl
@[simp] theorem clearCard_sdc_counter (s : State) : (clearCard s).sdc.counter = s.sdc.counter := rfl

/-! ## `setPrinter`: the printer state set (R135) -/

@[simp] theorem setPrinter_clock (st : PrinterState) (s : State) : (setPrinter st s).clock = s.clock := rfl
@[simp] theorem setPrinter_free (st : PrinterState) (s : State) : (setPrinter st s).free = s.free := rfl
@[simp] theorem setPrinter_pins (st : PrinterState) (s : State) : (setPrinter st s).pins = s.pins := rfl
@[simp] theorem setPrinter_lli (st : PrinterState) (s : State) : (setPrinter st s).lli = s.lli := rfl
@[simp] theorem setPrinter_wch (st : PrinterState) (s : State) : (setPrinter st s).wch = s.wch := rfl
@[simp] theorem setPrinter_sst (st : PrinterState) (s : State) : (setPrinter st s).sst = s.sst := rfl
@[simp] theorem setPrinter_sru (st : PrinterState) (s : State) : (setPrinter st s).sru = s.sru := rfl
@[simp] theorem setPrinter_sdc (st : PrinterState) (s : State) : (setPrinter st s).sdc = s.sdc := rfl
@[simp] theorem setPrinter_tlc (st : PrinterState) (s : State) : (setPrinter st s).tlc = s.tlc := rfl
@[simp] theorem setPrinter_pbu (st : PrinterState) (s : State) : (setPrinter st s).pbu = s.pbu := rfl
@[simp] theorem setPrinter_acp (st : PrinterState) (s : State) : (setPrinter st s).acp = s.acp := rfl
@[simp] theorem setPrinter_tbs (st : PrinterState) (s : State) : (setPrinter st s).tbs = s.tbs := rfl
@[simp] theorem setPrinter_pending (st : PrinterState) (s : State) : (setPrinter st s).pending = s.pending := rfl
@[simp] theorem setPrinter_pen_state (st : PrinterState) (s : State) : (setPrinter st s).pen.state = st := rfl
@[simp] theorem setPrinter_pen_nearEnd (st : PrinterState) (s : State) : (setPrinter st s).pen.nearEnd = s.pen.nearEnd := rfl
@[simp] theorem setPrinter_pen_paperOut (st : PrinterState) (s : State) : (setPrinter st s).pen.paperOut = s.pen.paperOut := rfl
@[simp] theorem setPrinter_pen_coverOpen (st : PrinterState) (s : State) : (setPrinter st s).pen.coverOpen = s.pen.coverOpen := rfl
@[simp] theorem setPrinter_pen_headHot (st : PrinterState) (s : State) : (setPrinter st s).pen.headHot = s.pen.headHot := rfl
@[simp] theorem setPrinter_pen_home (st : PrinterState) (s : State) : (setPrinter st s).pen.home = s.pen.home := rfl
@[simp] theorem setPrinter_pen_queue (st : PrinterState) (s : State) : (setPrinter st s).pen.queue = s.pen.queue := rfl
@[simp] theorem setPrinter_pen_paperMark (st : PrinterState) (s : State) : (setPrinter st s).pen.paperMark = s.pen.paperMark := rfl
@[simp] theorem setPrinter_pen_coverMark (st : PrinterState) (s : State) : (setPrinter st s).pen.coverMark = s.pen.coverMark := rfl
@[simp] theorem setPrinter_pen_feed (st : PrinterState) (s : State) : (setPrinter st s).pen.feed = s.pen.feed := rfl
@[simp] theorem setPrinter_pen_sinceGlyph (st : PrinterState) (s : State) : (setPrinter st s).pen.sinceGlyph = s.pen.sinceGlyph := rfl
@[simp] theorem setPrinter_pen_owed (st : PrinterState) (s : State) : (setPrinter st s).pen.owed = s.pen.owed := rfl
@[simp] theorem setPrinter_pen_context (st : PrinterState) (s : State) : (setPrinter st s).pen.context = s.pen.context := rfl

/-! ## `setPresence`: a unit's presence set (R160) -/

@[simp] theorem setPresence_clock (n : Nat) (p : Presence) (misses : Nat) (s : State) : (setPresence n p misses s).clock = s.clock := rfl
@[simp] theorem setPresence_free (n : Nat) (p : Presence) (misses : Nat) (s : State) : (setPresence n p misses s).free = s.free := rfl
@[simp] theorem setPresence_pins (n : Nat) (p : Presence) (misses : Nat) (s : State) : (setPresence n p misses s).pins = s.pins := rfl
@[simp] theorem setPresence_lli (n : Nat) (p : Presence) (misses : Nat) (s : State) : (setPresence n p misses s).lli = s.lli := rfl
@[simp] theorem setPresence_wch (n : Nat) (p : Presence) (misses : Nat) (s : State) : (setPresence n p misses s).wch = s.wch := rfl
@[simp] theorem setPresence_sst (n : Nat) (p : Presence) (misses : Nat) (s : State) : (setPresence n p misses s).sst = s.sst := rfl
@[simp] theorem setPresence_sru (n : Nat) (p : Presence) (misses : Nat) (s : State) : (setPresence n p misses s).sru = s.sru := rfl
@[simp] theorem setPresence_sdc (n : Nat) (p : Presence) (misses : Nat) (s : State) : (setPresence n p misses s).sdc = s.sdc := rfl
@[simp] theorem setPresence_tlc (n : Nat) (p : Presence) (misses : Nat) (s : State) : (setPresence n p misses s).tlc = s.tlc := rfl
@[simp] theorem setPresence_pen (n : Nat) (p : Presence) (misses : Nat) (s : State) : (setPresence n p misses s).pen = s.pen := rfl
@[simp] theorem setPresence_pbu (n : Nat) (p : Presence) (misses : Nat) (s : State) : (setPresence n p misses s).pbu = s.pbu := rfl
@[simp] theorem setPresence_tbs (n : Nat) (p : Presence) (misses : Nat) (s : State) : (setPresence n p misses s).tbs = s.tbs := rfl
@[simp] theorem setPresence_pending (n : Nat) (p : Presence) (misses : Nat) (s : State) : (setPresence n p misses s).pending = s.pending := rfl
@[simp] theorem setPresence_acp_queue (n : Nat) (p : Presence) (misses : Nat) (s : State) : (setPresence n p misses s).acp.queue = s.acp.queue := rfl
@[simp] theorem setPresence_acp_visit (n : Nat) (p : Presence) (misses : Nat) (s : State) : (setPresence n p misses s).acp.visit = s.acp.visit := rfl
@[simp] theorem setPresence_acp_roundDue (n : Nat) (p : Presence) (misses : Nat) (s : State) : (setPresence n p misses s).acp.roundDue = s.acp.roundDue := rfl
@[simp] theorem setPresence_acp_held (n : Nat) (p : Presence) (misses : Nat) (s : State) : (setPresence n p misses s).acp.held = s.acp.held := rfl
@[simp] theorem setPresence_acp_mirrorDue (n : Nat) (p : Presence) (misses : Nat) (s : State) : (setPresence n p misses s).acp.mirrorDue = s.acp.mirrorDue := rfl
@[simp] theorem setPresence_acp_lastSent (n : Nat) (p : Presence) (misses : Nat) (s : State) : (setPresence n p misses s).acp.lastSent = s.acp.lastSent := rfl
@[simp] theorem setPresence_acp_blocked (n : Nat) (p : Presence) (misses : Nat) (s : State) : (setPresence n p misses s).acp.blocked = s.acp.blocked := rfl

end Sys2Proof.Machine
end

