-- ==== Sys2Proof/Laws/Window.lean ====
section
/-! SUPPORT. A solenoid grant is the only way in which the pulse budget, the printer and the till reach the weighing channel:
it opens the disturbance window and restarts an average (R18, R48), and nothing else of the channel changes. -/

namespace Sys2Proof.Machine

open Sys2Proof

/-- Nothing of the channel changes but its window and the average of a calibration step. -/
def WindowOnly (s t : State) : Prop :=
  t.wch = { s.wch with window := t.wch.window, cal := t.wch.cal } ∧ (s.wch.cal = none → t.wch.cal = none)

theorem WindowOnly.refl (s : State) : WindowOnly s s := ⟨rfl, id⟩

theorem WindowOnly.of_eq {s t : State} (h : t.wch = s.wch) : WindowOnly s t := by
  unfold WindowOnly; rw [h]; exact ⟨rfl, id⟩

theorem WindowOnly.trans {s t u : State} (h : WindowOnly s t) (h' : WindowOnly t u) : WindowOnly s u := by
  refine ⟨?_, fun hc => h'.2 (h.2 hc)⟩
  rw [h'.1, h.1]

theorem WindowOnly.state {s t : State} (h : WindowOnly s t) : t.wch.state = s.wch.state := by rw [h.1]

theorem grantSolenoid_window (s : State) : WindowOnly s (grantSolenoid s) := by
  refine ⟨rfl, fun h => ?_⟩
  show (if s.wch.disturbed then s.wch.cal else s.wch.cal.map CalContext.disturb) = none
  simp [h]

theorem examine_window (s : State) : WindowOnly s (examine s) := by
  rcases examine_cases s with ⟨_, _, e⟩ | ⟨r, _, _, e⟩ | e <;> rw [e]
  · exact grantSolenoid_window s
  · exact WindowOnly.refl s
  · exact WindowOnly.refl s

theorem placeSolenoid_window (s : State) : WindowOnly s (placeSolenoid s) :=
  examine_window { s with pbu := { s.pbu with solenoidReq := some s.clock } }

theorem withdrawSolenoid_window (s : State) : WindowOnly s (withdrawSolenoid s) :=
  examine_window { s with pbu := { s.pbu with solenoidReq := none } }

theorem placePhase_window (b : Bool) (c : Nat) (s : State) : WindowOnly s (placePhase b c s) :=
  examine_window { s with pbu := { s.pbu with phaseReq := some ⟨b, c, s.clock⟩ } }

theorem reportRowEnd_window (s : State) : WindowOnly s (reportRowEnd s) :=
  examine_window { s with pbu := { s.pbu with arbiter := none } }

theorem setClosing_window (w : Wch) (d : Nat) :
    w.setClosing d = { w with window := (w.setClosing d).window, cal := (w.setClosing d).cal } ∧
    (w.setClosing d).cal = w.cal := by
  unfold Wch.setClosing; split <;> exact ⟨rfl, rfl⟩

theorem reportPulseEnd_window (s : State) : WindowOnly s (reportPulseEnd s) := by
  refine WindowOnly.trans (t := { s with
    pbu := { s.pbu with pulse := none }
    wch := s.wch.setClosing (s.clock + s.lli.params.disturbanceSettle * 1000) }) ?_ (examine_window _)
  obtain ⟨h1, h2⟩ := setClosing_window s.wch (s.clock + s.lli.params.disturbanceSettle * 1000)
  exact ⟨h1, fun h => h2.trans h⟩

theorem towardGrant_window (s : State) : WindowOnly s (towardGrant s) := by
  unfold towardGrant
  split
  · exact WindowOnly.refl s
  · exact placeSolenoid_window { s with tlc := { s.tlc with state := .waitGrant } }

theorem issueAuth_window (a : Auth) (s : State) : WindowOnly s (issueAuth a s) := by
  unfold issueAuth
  split
  · exact towardGrant_window { s with tlc := { s.tlc with auth := some a } }
  · exact WindowOnly.refl s

theorem holdImposed_window (s : State) : WindowOnly s (holdImposed s) := by
  unfold holdImposed
  split
  · exact withdrawSolenoid_window { s with tlc := { s.tlc with state := .closed } }
  · exact WindowOnly.refl s

theorem holdLifted_window (s : State) : WindowOnly s (holdLifted s) := by
  unfold holdLifted
  split
  · exact towardGrant_window s
  · exact WindowOnly.refl s

theorem trySwap_wch (n : TableName) (s : State) : (trySwap n s).wch = s.wch := by unfold trySwap; split <;> rfl

theorem swapPrintTables_wch (s : State) : (swapPrintTables s).wch = s.wch := by
  rw [swapPrintTables, trySwap_wch, trySwap_wch]

theorem swapSlotTables_wch (s : State) : (swapSlotTables s).wch = s.wch := by
  rw [swapSlotTables, trySwap_wch, trySwap_wch]

theorem composerFill_wch (s : State) : (composerFill s).wch = s.wch := by unfold composerFill; split <;> rfl

theorem haltTest_wch {s t : State} (h : haltTest s = some t) : t.wch = s.wch := by
  unfold haltTest at h
  split at h
  · cases h; simp only [actMark, enterHalt, swapPrintTables_wch]; rfl
  · split at h
    · cases h; simp only [enterHalt, swapPrintTables_wch]; rfl
    · cases h

theorem startRow_window (p : PrintLine) (s : State) : WindowOnly s (startRow p s) := by
  unfold startRow
  split
  · exact WindowOnly.refl s
  · rename_i ph rest _
    exact placePhase_window _ _ (setPrinter (.printing rest (.waiting ph)) s)

theorem goOnFrom_window (fuel : Nat) (s : State) : WindowOnly s (goOnFrom fuel s) := by
  induction fuel generalizing s with
  | zero => exact WindowOnly.refl s
  | succ k ih =>
    unfold goOnFrom
    split
    · rename_i t ht; exact WindowOnly.of_eq (haltTest_wch ht)
    · split
      · exact WindowOnly.refl s
      · split
        · exact WindowOnly.refl s
        · split
          · exact WindowOnly.trans (WindowOnly.of_eq (by rw [composerFill_wch]; rfl)) (ih _)
          · exact WindowOnly.trans (WindowOnly.of_eq (by rw [composerFill_wch]; rfl)) (ih _)
          · split
            · exact WindowOnly.refl s
            · exact startRow_window _ s
          · exact WindowOnly.of_eq (by rw [swapPrintTables_wch]; rfl)

theorem goOn_window (s : State) : WindowOnly s (goOn s) := goOnFrom_window _ s

theorem wakePrinter_window (s : State) : WindowOnly s (wakePrinter s) := by
  unfold wakePrinter; split
  · exact goOn_window s
  · exact WindowOnly.refl s

theorem composerAct_window (s : State) : WindowOnly s (composerAct s) :=
  WindowOnly.trans (WindowOnly.of_eq (composerFill_wch s)) (wakePrinter_window _)

theorem addLine_window (o : Sale) (l : Line) (r : Option ReferralReason) (s : State) :
    WindowOnly s (addLine o l r s) := by
  unfold addLine
  split
  · exact composerAct_window (setOpen (o.append l) s)
  · exact composerAct_window (raiseReferral _ (setOpen _ s))

theorem postWeighed_window (c : Capture) (g : Figures) (s : State) : WindowOnly s (postWeighed c g s).1 := by
  unfold postWeighed
  split
  · exact WindowOnly.refl s
  · simp only
    split
    · exact addLine_window _ _ _ s
    · exact WindowOnly.refl s

theorem offerEmbedded_window (p a : Nat) (s : State) : WindowOnly s (offerEmbedded p a s).1 := by
  unfold offerEmbedded
  split
  · exact WindowOnly.refl s
  · split
    · exact WindowOnly.refl s
    · simp only
      split
      · exact addLine_window _ _ _ s
      · exact WindowOnly.refl s

/-! ## The lane link hears nothing of a grant -/

theorem examine_lli (s : State) : (examine s).lli = s.lli := by
  rcases examine_cases s with ⟨_, _, e⟩ | ⟨r, _, _, e⟩ | e <;> rw [e] <;> rfl

theorem towardGrant_lli (s : State) : (towardGrant s).lli = s.lli := by
  unfold towardGrant placeSolenoid; split
  · rfl
  · rw [examine_lli]

theorem issueAuth_lli (a : Auth) (s : State) : (issueAuth a s).lli = s.lli := by
  unfold issueAuth; split
  · rw [towardGrant_lli]
  · rfl

theorem holdImposed_lli (s : State) : (holdImposed s).lli = s.lli := by
  unfold holdImposed withdrawSolenoid; split
  · rw [examine_lli]
  · rfl

theorem holdLifted_lli (s : State) : (holdLifted s).lli = s.lli := by
  unfold holdLifted; split
  · rw [towardGrant_lli]
  · rfl

/-! ## Notices that stand -/

theorem Standing.discardHeld {s : State} {n : Notice} (h : Standing s n) (hk : n.kind ≠ 14) :
    Standing (discardHeld s) n := by
  unfold Machine.discardHeld; split
  · exact h
  · exact Standing.raised _ (Standing.of_notices (t := { s with acp := { s.acp with held := none } }) h rfl)
      (by simpa [Notice.kind] using Ne.symm hk)

theorem Standing.captureEmptied {s : State} {n : Notice} (h : Standing s n) (hk : n.kind ≠ 14) :
    Standing (captureEmptied s) n := by
  unfold Machine.captureEmptied startHeld; split
  · exact h
  · split
    · split
      · exact Standing.raised _ (Standing.of_notices h rfl) (by simpa [Notice.kind] using Ne.symm hk)
      · exact h
      · exact h.discardHeld hk
    · exact h.discardHeld hk

theorem Standing.endCapture {s : State} {n : Notice} (r : CaptureResult) (h : Standing s n) (hk : n.kind ≠ 3) :
    Standing (endCapture r s) n := by
  unfold Machine.endCapture; split
  · exact h
  · exact Standing.raised _ (Standing.of_notices h rfl) (by simpa [Notice.kind] using Ne.symm hk)

theorem Standing.endStep {s : State} {n : Notice} (r : CalResult) (h : Standing s n) (hk : n.kind ≠ 4) :
    Standing (endStep r s) n := by
  unfold Machine.endStep; split
  · exact h
  · exact Standing.raised _ (Standing.of_notices h rfl) (by simpa [Notice.kind] using Ne.symm hk)

theorem Standing.holdLifted {s : State} {n : Notice} (h : Standing s n) : Standing (holdLifted s) n :=
  h.of_notices (by rw [holdLifted_lli])

theorem Standing.enterFault {s : State} {n : Notice} (c : FaultCause) (h : Standing s n)
    (hk : n.kind ≠ 2 ∧ n.kind ≠ 3 ∧ n.kind ≠ 4 ∧ n.kind ≠ 14) : Standing (enterFault c s) n := by
  unfold Machine.enterFault; split
  · exact h.of_notices rfl
  · refine Standing.raised _ ?_ (by simpa [Wch.detail, Notice.kind] using Ne.symm hk.1)
    have h1 : ∀ x : State, x.lli.notices = (Machine.endStep .aborted (Machine.endCapture .fault s)).lli.notices →
        Standing x n := fun x e => ((h.endCapture .fault hk.2.1).endStep .aborted hk.2.2.1).of_notices e
    have h2 : ∀ x : State, Standing x n →
        Standing (if s.wch.capture.isSome = true then Machine.captureEmptied x else x) n := by
      intro x hx; split
      · exact hx.captureEmptied hk.2.2.2
      · exact hx
    split
    · refine Standing.holdLifted (h2 _ (h1 _ ?_)); rfl
    · refine h2 _ (h1 _ ?_); rfl

theorem Standing.restart {s : State} {n : Notice} (c : RestartCause) (h : Standing s n)
    (hk : n.kind ≠ 3 ∧ n.kind ≠ 14) : Standing (restart c s) n := by
  unfold Machine.restart
  have h1 : ∀ x : State, x.lli.notices = (Machine.endCapture .fault s).lli.notices → Standing x n :=
    fun x e => (h.endCapture .fault hk.1).of_notices e
  split
  · refine Standing.captureEmptied (h1 _ ?_) hk.2; rfl
  · refine h1 _ ?_; rfl

theorem Standing.leaveCal {s : State} {n : Notice} (h : Standing s n)
    (hk : n.kind ≠ 3 ∧ n.kind ≠ 4 ∧ n.kind ≠ 14) : Standing (leaveCal s) n := by
  unfold Machine.leaveCal
  have h1 : Standing { Machine.endStep .aborted s with wch := { (Machine.endStep .aborted s).wch with cal := none } } n :=
    (h.endStep .aborted hk.2.1).of_notices rfl
  exact (h1.restart .calLeave ⟨hk.1, hk.2.2⟩).holdLifted

/-- The notices with which entering FAULT ends what was in progress (R7, R22, R47), and WEIGHT. -/
theorem enterFault_notices (c : FaultCause) {s : State} (h : s.wch.state ≠ .fault) :
    Standing (enterFault c s) (enterFault c s).wch.detail ∧
    (∀ k, s.wch.capture = some k → Standing (enterFault c s) (.capture k.source .fault none)) ∧
    (∀ x y, s.wch.cal = some x → x.run = some y → Standing (enterFault c s) (.cal y.step.name .aborted)) := by
  have tail : ∀ n : Notice, n.kind ≠ 2 → n.kind ≠ 14 → Standing (Machine.endStep .aborted (Machine.endCapture .fault s)) n →
      Standing (enterFault c s) n := by
    intro n h2 h14 hn
    unfold enterFault
    rw [if_neg h]
    refine Standing.raised _ ?_ (by simpa [Wch.detail, Notice.kind] using Ne.symm h2)
    have hx : ∀ x : State, Standing x n →
        Standing (if s.wch.capture.isSome = true then Machine.captureEmptied x else x) n := by
      intro x hx; split
      · exact hx.captureEmptied h14
      · exact hx
    split
    · refine Standing.holdLifted (hx _ (Standing.of_notices hn ?_)); rfl
    · refine hx _ (Standing.of_notices hn ?_); rfl
  refine ⟨?_, fun k hk => ?_, fun x y hx hy => ?_⟩
  · unfold enterFault; rw [if_neg h]; exact standing_raise _ _
  · refine tail _ (by simp [Notice.kind]) (by simp [Notice.kind]) (Standing.endStep _ ?_ (by simp [Notice.kind]))
    unfold endCapture; simp only [hk]; exact standing_raise _ _
  · refine tail _ (by simp [Notice.kind]) (by simp [Notice.kind]) ?_
    have hc : (Machine.endCapture .fault s).wch.cal = s.wch.cal := by unfold Machine.endCapture; split <;> rfl
    unfold Machine.endStep
    rw [hc, hx]
    simp only [Option.bind_some, hy]
    exact standing_raise _ _

/-! ## FAULT and the end of CAL -/

/-- The channel on entering FAULT, before the till hears of it (R7). -/
def faultedWch (c : FaultCause) (s : State) : Wch := (endStep .aborted (endCapture .fault s)).wch.faulted c

/-- Entering FAULT leaves the channel as R7 says, but for a window that the end of a hold in CAL opens. -/
theorem enterFault_wch (c : FaultCause) {s : State} (h : s.wch.state ≠ .fault) :
    (enterFault c s).wch = { faultedWch c s with window := (enterFault c s).wch.window } ∧
    (s.wch.state ≠ .cal → (enterFault c s).wch = faultedWch c s) := by
  have hx : ∀ x : State, x.wch = faultedWch c s →
      (if s.wch.capture.isSome = true then captureEmptied x else x).wch = faultedWch c s := by
    intro x hx
    split
    · have hc : x.wch.capture = none := by
        rw [hx]
        show (endStep .aborted (endCapture .fault s)).wch.capture = none
        rw [endStep_wch]
        exact endCapture_capture .fault s
      have hf : x.wch.state ≠ .running := by rw [hx]; simp [faultedWch, Wch.faulted]
      rw [captureEmptied_of_not_running hf hc, discardHeld_wch, hx]
    · exact hx
  have e := hx { endStep .aborted (endCapture .fault s) with
    wch := (endStep .aborted (endCapture .fault s)).wch.faulted c } rfl
  unfold enterFault
  rw [if_neg h]
  refine ⟨?_, fun hc => ?_⟩
  · show (if s.wch.state = .cal then holdLifted _ else _).wch = _
    split
    · have hw := holdLifted_window (if s.wch.capture.isSome = true then
        captureEmptied { endStep .aborted (endCapture .fault s) with
          wch := (endStep .aborted (endCapture .fault s)).wch.faulted c }
        else { endStep .aborted (endCapture .fault s) with
          wch := (endStep .aborted (endCapture .fault s)).wch.faulted c })
      have hcal := hw.2 (by rw [e]; rfl)
      refine hw.1.trans ?_
      rw [e, hcal]
      simp [faultedWch, Wch.faulted, raiseWeight, raise]
    · rw [e]
      simp [raiseWeight, raise, e]
  · show (if s.wch.state = .cal then holdLifted _ else _).wch = _
    rw [if_neg hc]
    exact e

end Sys2Proof.Machine
end

