-- ==== Sys2Proof/Laws/Update.lean ====
section
/-! SUPPORT. What the checks of a filtered update (R3) may change, and that none of them changes the ring, the update held as
the latest or the bits that the update set. -/

namespace Sys2Proof.Machine

open Sys2Proof

/-- The ring, its count, the latest update and the bits of an update stay. -/
def Steady (s t : State) : Prop :=
  t.wch.ring = s.wch.ring ∧ t.wch.count = s.wch.count ∧ t.wch.last = s.wch.last ∧ t.wch.ind = s.wch.ind

theorem Steady.refl (s : State) : Steady s s := ⟨rfl, rfl, rfl, rfl⟩

theorem Steady.trans {s t u : State} (h : Steady s t) (h' : Steady t u) : Steady s u :=
  ⟨h'.1.trans h.1, h'.2.1.trans h.2.1, h'.2.2.1.trans h.2.2.1, h'.2.2.2.trans h.2.2.2⟩

theorem WindowOnly.steady {s t : State} (h : WindowOnly s t) : Steady s t := by
  unfold Steady; rw [h.1]; exact ⟨rfl, rfl, rfl, rfl⟩

theorem captureEmptied_steady (s : State) : Steady s (captureEmptied s) := by
  unfold captureEmptied startHeld
  split
  · exact Steady.refl s
  · split
    · split
      · exact ⟨rfl, rfl, rfl, rfl⟩
      · exact Steady.refl s
      · unfold Steady; rw [discardHeld_wch]; exact ⟨rfl, rfl, rfl, rfl⟩
    · unfold Steady; rw [discardHeld_wch]; exact ⟨rfl, rfl, rfl, rfl⟩

theorem initialZero_works (u : Update) (s : State) : Works [.weighing] [] s (initialZero u s) := by
  unfold initialZero
  split
  · split
    · split <;>
        exact Works.of rfl rfl rfl rfl fun p hp => by cases p <;> first | rfl | exact absurd (by simp) hp
    · exact Works.refl _ _ s
  · exact Works.refl _ _ s

/-- Outside ZERO_PENDING an update does not zero the channel (R11). -/
theorem initialZero_of_not_pending {u : Update} {s : State} (h : s.wch.state ≠ .zeroPending) : initialZero u s = s := by
  unfold initialZero
  split
  · rename_i hs _; exact absurd hs h
  · rfl

theorem autoClearTare_works (u : Update) (s : State) :
    Works [.weighing] [] s (autoClearTare u s) ∧ Steady s (autoClearTare u s) ∧
    (autoClearTare u s).wch.capture = s.wch.capture := by
  unfold autoClearTare
  split
  · split
    · exact ⟨Works.of rfl rfl rfl rfl fun p hp => by cases p <;> first | rfl | exact absurd (by simp) hp,
        ⟨rfl, rfl, rfl, rfl⟩, rfl⟩
    · exact ⟨Works.refl _ _ s, Steady.refl s, rfl⟩
  · exact ⟨Works.refl _ _ s, Steady.refl s, rfl⟩

theorem closeCapture_works (c : Capture) (a : Option (Nat × LineState)) (s : State) :
    Works [.weighing] [3] s (closeCapture c a s) := by
  unfold closeCapture
  refine Works.raised ?_ ?_
  · exact ⟨rfl, rfl, rfl, fun p hp => by cases p <;> first | rfl | exact absurd (by simp) hp, RaisesOnly.refl _ _⟩
  · unfold captureNews; split <;> simp [Notice.kind]

/-- The parts that a waiting capture may change when it completes. -/
def State.captureParts (s : State) : List Part :=
  if s.wch.capture.isSome then [.sale, .accessory] ++ s.printParts else []

theorem complete_body_works (c : Capture) (g : Figures) (s : State) :
    Works (.weighing :: ([.sale, .accessory] ++ s.printParts)) [2, 3, 7, 12, 13, 14] s
      (captureEmptied (closeCapture c (postWeighed c g s).2 (postWeighed c g s).1)) := by
  have h1 : Works (.weighing :: ([.sale, .accessory] ++ s.printParts)) [2, 3, 7, 12, 13, 14] s (postWeighed c g s).1 := by
    refine (postWeighed_works c g s).mono ?_ ?_
    · intro p hp
      rcases List.mem_cons.1 hp with e | e
      · simp [e]
      · simp [e]
    · intro k hk
      rcases List.mem_cons.1 hk with e | e
      · simp [e]
      · have := printKinds_sub _ k e
        simp only [List.mem_cons, List.not_mem_nil, or_false] at this ⊢
        omega
  have h2 := closeCapture_works c (postWeighed c g s).2 (postWeighed c g s).1
  have h3 := captureEmptied_works (closeCapture c (postWeighed c g s).2 (postWeighed c g s).1)
  exact (h1.trans (h2.mono (by simp) (by simp))).trans (h3.mono (by simp) (by simp))

theorem complete_body_steady (c : Capture) (g : Figures) (s : State) :
    Steady s (captureEmptied (closeCapture c (postWeighed c g s).2 (postWeighed c g s).1)) := by
  have h1 := (postWeighed_window c g s).steady
  have h2 : Steady (postWeighed c g s).1 (closeCapture c (postWeighed c g s).2 (postWeighed c g s).1) :=
    ⟨rfl, rfl, rfl, rfl⟩
  exact (h1.trans h2).trans (captureEmptied_steady _)

theorem completeCapture_works (u : Update) (s : State) :
    Works (.weighing :: s.captureParts) [2, 3, 7, 12, 13, 14] s (completeCapture u s) ∧ Steady s (completeCapture u s) := by
  unfold completeCapture
  split
  · rename_i hc _ _
    split
    · refine ⟨?_, complete_body_steady _ _ s⟩
      simp only [State.captureParts, hc, Option.isSome_some, if_true]
      exact complete_body_works _ _ s
    · exact ⟨Works.refl _ _ s, Steady.refl s⟩
  · exact ⟨Works.refl _ _ s, Steady.refl s⟩

theorem clearInterlock_works (u : Update) (s : State) :
    Works [.weighing] [] s (clearInterlock u s) ∧ Steady s (clearInterlock u s) := by
  have key : ∀ b : Bool, Works [.weighing] [] s (if b then { s with wch := { s.wch with interlock := false } } else s) ∧
      Steady s (if b then { s with wch := { s.wch with interlock := false } } else s) := fun b => by
    cases b
    · exact ⟨Works.refl _ _ s, Steady.refl s⟩
    · exact ⟨Works.of rfl rfl rfl rfl fun p hp => by cases p <;> first | rfl | exact absurd (by simp) hp,
        rfl, rfl, rfl, rfl⟩
  exact key _

theorem averageStep_works (u : Update) (s : State) :
    Works [.weighing] [4] s (averageStep u s) ∧ Steady s (averageStep u s) := by
  unfold averageStep
  split
  · exact ⟨Works.refl _ _ s, Steady.refl s⟩
  · split
    · exact ⟨Works.refl _ _ s, Steady.refl s⟩
    · simp only
      split
      · refine ⟨Works.raised ?_ (by simp [Notice.kind]), rfl, rfl, rfl, rfl⟩
        exact ⟨rfl, rfl, rfl, fun p hp => by cases p <;> first | rfl | exact absurd (by simp) hp, RaisesOnly.refl _ _⟩
      · refine ⟨?_, rfl, rfl, rfl, rfl⟩
        exact ⟨rfl, rfl, rfl, fun p hp => by cases p <;> first | rfl | exact absurd (by simp) hp, RaisesOnly.refl _ _⟩

/-- The capture slot of an update that has not zeroed the channel for the first time: the checks before the capture's leave
it alone, and the parts a completion may change are those of the state before. -/
theorem captureParts_eq {s t : State} (h : Works [.weighing] [] s t) (hc : t.wch.capture = s.wch.capture) :
    t.captureParts = s.captureParts := by
  have h1 : t.pen = s.pen := h.2.2.2.1 .printer (by simp)
  have h2 : t.pbu = s.pbu := h.2.2.2.1 .budget (by simp)
  have h3 : t.tbs = s.tbs := h.2.2.2.1 .tables (by simp)
  simp only [State.captureParts, hc, printParts_eq h1 h2 h3]

theorem initialZero_capture (u : Update) (s : State) : (initialZero u s).wch.capture = s.wch.capture := by
  unfold initialZero; (repeat' split) <;> rfl

/-- The checks of an update (R3): what they may change, and what stays unless the update is one of ZERO_PENDING (R30). -/
theorem updateChecks_works (u : Update) (s : State) :
    Works (.weighing :: s.captureParts) [2, 3, 4, 7, 12, 13, 14] s (updateChecks u s) ∧
    (s.wch.state ≠ .zeroPending → Steady s (updateChecks u s)) := by
  have w1 := initialZero_works u s
  obtain ⟨w2, k2, c2⟩ := autoClearTare_works u (initialZero u s)
  obtain ⟨w3, k3⟩ := completeCapture_works u (autoClearTare u (initialZero u s))
  obtain ⟨w4, k4⟩ := clearInterlock_works u (completeCapture u (autoClearTare u (initialZero u s)))
  obtain ⟨w5, k5⟩ := averageStep_works u (clearInterlock u (completeCapture u (autoClearTare u (initialZero u s))))
  have w12 := w1.trans w2
  have hp := captureParts_eq w12 (c2.trans (initialZero_capture u s))
  rw [hp] at w3
  refine ⟨?_, fun hz => (((Steady.trans (by rw [initialZero_of_not_pending hz]; exact Steady.refl s) k2).trans k3).trans
    k4).trans k5⟩
  exact (((w12.mono (by simp) (by simp)).trans (w3.mono (fun _ h => h) (by simp))).trans
    (w4.mono (by simp) (by simp))).trans (w5.mono (by simp) (by simp))

end Sys2Proof.Machine
end

