-- ==== Sys2Proof/Tests/Slice0.lean ====
section
/-! SUPPORT. The tests: the smoke test of WellFormed, worked cases of the spec, and for every statement of Obligations.lean
that has hypotheses a concrete state and operands that meet them, clause by clause, at boundary values of their ranges. -/

namespace Sys2Proof.Tests

open Sys2Proof Sys2Proof.Machine

/-! ## WellFormed: an ill-formed term for each check -/

theorem test_ill_sample : (Instr.sample 8388608).wellFormed = false ∧ (Instr.sample (-8388609)).wellFormed = false ∧
    (Instr.sample (-8388608)).wellFormed = true := by decide
theorem test_ill_grams : (Instr.weighPresetTare 0 65536).wellFormed = false := by decide
theorem test_ill_offset : (Instr.weighTestOn 0 2147483648).wellFormed = false ∧
    (Instr.weighTestOn 0 (-2147483649)).wellFormed = false := by decide
theorem test_ill_plu : (Instr.weighCapture 0 4294967296).wellFormed = false ∧
    (Instr.itemAdd 0 4294967296 1).wellFormed = false := by decide
theorem test_ill_quantity : (Instr.itemAdd 0 1 65536).wellFormed = false := by decide
theorem test_ill_span : (Instr.calSpan 0 65536).wellFormed = false := by decide
theorem test_ill_ranges : (Instr.calRanges 0 65536 1 1 1).wellFormed = false ∧ (Instr.calRanges 0 1 256 1 1).wellFormed = false ∧
    (Instr.calRanges 0 1 1 65536 1).wellFormed = false ∧ (Instr.calRanges 0 1 1 1 256).wellFormed = false := by decide
theorem test_ill_line : (Instr.lineVoid 0 256).wellFormed = false ∧ (Instr.referralTimerExpiry 256).wellFormed = false ∧
    (Instr.referralAnswerReject 0 256).wellFormed = false := by decide
theorem test_ill_price : (Instr.referralAnswerAccept 0 1 (.unitPrice 4294967296)).wellFormed = false ∧
    (Instr.referralAnswerAccept 0 1 (.amount 2147483648)).wellFormed = false ∧
    (Instr.referralAnswerAccept 0 256 (.amount 0)).wellFormed = false := by decide
theorem test_ill_amount : (Instr.tenderCash 0 4294967296).wellFormed = false ∧
    (Instr.tenderCard 0 4294967296 1).wellFormed = false ∧ (Instr.itemText 0 [] 2147483648).wellFormed = false := by decide
theorem test_ill_serial : (Instr.tenderCard 0 1 65536).wellFormed = false ∧ (Instr.cardRelease 0 65536).wellFormed = false := by
  decide
theorem test_ill_place : (Instr.lineRead 0 (.other 1) 1).wellFormed = false ∧
    (Instr.lineRead 0 (.other 256) 1).wellFormed = false ∧ (Instr.lineRead 0 .opened 256).wellFormed = false := by decide
theorem test_ill_feed : (Instr.printFeed 0 256).wellFormed = false := by decide
theorem test_ill_count : (Instr.tableEnd 0 65536).wellFormed = false ∧
    (Instr.tableRead 0 [] 4294967296).wellFormed = false := by decide
set_option maxRecDepth 100000 in
theorem test_ill_payloads :
    (Instr.setParam 0 (List.replicate 236 65) 0).wellFormed = false ∧ (Instr.setParam 0 (List.replicate 235 65) 0).wellFormed ∧
    (Instr.getParam 0 (List.replicate 240 65)).wellFormed = false ∧
    (Instr.itemText 0 (List.replicate 236 65) 0).wellFormed = false ∧
    (Instr.cardApprove 0 (List.replicate 237 65)).wellFormed = false ∧
    (Instr.printText 0 (List.replicate 237 65) false false).wellFormed = false ∧
    (Instr.tableBegin 0 (List.replicate 238 65)).wellFormed = false ∧
    (Instr.tableRecord 0 (List.replicate 238 65)).wellFormed = false ∧
    (Instr.tableCancel 0 (List.replicate 237 65)).wellFormed = false ∧
    (Instr.tableRead 0 (List.replicate 235 65) 1).wellFormed = false := by decide
set_option maxRecDepth 100000 in
theorem test_ill_unknown : (Instr.unknownRequest 0 (ascii "LANE_START" ++ [0])).wellFormed = false ∧
    (Instr.unknownRequest 0 (List.replicate 251 65)).wellFormed = false ∧
    (Instr.unknownRequest 0 (ascii "LANE_START")).wellFormed = true := by decide
theorem test_ill_frame_length : (Instr.impossibleFrameLength 3).wellFormed = false ∧
    (Instr.impossibleFrameLength 253).wellFormed = false ∧ (Instr.impossibleFrameLength 254).wellFormed = true := by decide

/-! ## States of the tests -/

/-- A request finds its way at once. -/
abbrev Ready (s : State) : Prop := routerOpen s = true ∧ s.lli.requests = []

/-- With an open router and no request waiting, a request is taken as it arrives. -/
theorem at_router {i : Instr} {s : State} (h : Ready s) : AtRouter i s s := ⟨h.1, Or.inl ⟨h.2, rfl⟩⟩

/-- A calibration of 6 kg and 15 kg by 2 g and 5 g. -/
def record : CalRecord := ⟨120000, 1600000, 10000, 6000, 2, 15000, 5⟩

/-- A filtered value with 385.2 g on the platform, certified at 386 g... -/
def figures : Figures := ⟨3852, .none, 3852, 3860, 2⟩

/-- ... as an update. -/
def update : Update := ⟨182112, false, false, some figures⟩

def apples : ItemEntry := ⟨4011, ascii "APPLES", .perKg, 1299, none, false⟩
def roll : ItemEntry := ⟨3001, ascii "ROLL", .each, 249, none, false⟩

/-- A READY lane and a RUNNING channel, stable, its zero found, and two items. -/
def live : State := { State.reset with
  lli.lane := .ready
  lli.sending := none
  wch.state := .running
  wch.refill := none
  wch.zi := some 480
  wch.zo := 480
  wch.count := 64
  wch.last := some update
  wch.ind := ⟨true, false, false, false, false⟩
  wch.stabRef := some 3852
  wch.stabCount := 80
  sst.image.record := record
  sst.array.record := record
  tbs.item.active := [roll, apples] }

/-- A sale with the lines given. -/
def sale (state : SaleState) (lines : List Line) : Sale :=
  ⟨1, state, none, false, lines, [], none, 0, 0, 0, false, none⟩

/-- A line with its number, kind, state and amount. -/
def line (n : Nat) (k : LineKind) (st : LineState) (a : Int) : Line :=
  ⟨n, k, st, none, [], none, none, none, none, a, none, none, .notQueued⟩

/-- A roll sold twice, as the line stands. -/
def posted : Line := line 1 .item .posted 498

/-- A live part with this sale in the open slot. -/
def withSale (o : Sale) : State := { live with sru.openSlot := some o, sru.nextTag := 2 }

/-- A live part with an EMPTY sale in OPEN. -/
def selling : State := withSale (sale .opened [])

/-- A live part with a capture of the apples waiting. -/
def capturing : State := { selling with wch.capture := some ⟨4011, .request 5, some apples, 0, 3000000⟩ }

/-- A write of totals in flight. -/
def writing : State := { live with sst.inFlight := some ⟨.totals 1 500, 50000⟩ }

/-- The calibration mode with its switch closed and this context. -/
def calibrating (c : CalContext) : State :=
  { live with wch.state := .cal, wch.calSwitchClosed := true, wch.cal := some c }

/-- A calibration with all its candidates. -/
def candidates : CalContext := ⟨none, some 120000, some (1600000, 10000), some ⟨6000, 2, 15000, 5⟩, false⟩

/-- A commit of those candidates in flight. -/
def committing : State :=
  { calibrating candidates with sst.inFlight := some ⟨.calibration record 1, 50000⟩ }

/-- A card record with its account on track B. -/
def card : CardRecord := ⟨7, 1, ⟨.noData, none, []⟩, ⟨.ok, some .forward, ascii ";4000123412341234?"⟩,
  some (ascii "4000123412341234")⟩

/-! ## Witnesses: the queue, the router and the resets -/

theorem witness_step : ({ State.reset with pending := [.sample 0, .swipeEnd] } : State).pending = .sample 0 :: [.swipeEnd] ∧
    State.reset.pending = [] := by decide

theorem witness_router_arrivals :
    (Instr.laneStart 1).tag? = some 1 ∧ (Instr.laneStart 1).wellFormed = true ∧
    -- an empty queue and a router that takes nothing, by CONTROLLER_RESET and by a full response part
    (let s := { live with lli.resetAnswer := .waiting }; s.lli.requests = [] ∧ routerOpen s = false) ∧
    (let s := { live with lli.responses := List.replicate 8 ⟨0, .ok, [], false⟩ }; s.lli.requests = [] ∧ routerOpen s = false) ∧
    -- a queue of seven, one of eight with seven and with eight responses
    (let s := { live with lli.requests := .laneStatus 9 :: List.replicate 6 (.laneStatus 8) }
     s.lli.requests = .laneStatus 9 :: List.replicate 6 (.laneStatus 8) ∧ Instr.laneStatus 9 ≠ .laneStart 1 ∧
       s.lli.requests.length < 8) ∧
    (let s := { live with lli.requests := .laneStatus 9 :: List.replicate 7 (.laneStatus 8)
                          lli.responses := List.replicate 7 ⟨0, .ok, [], false⟩ }
     s.lli.requests = .laneStatus 9 :: List.replicate 7 (.laneStatus 8) ∧ 8 ≤ s.lli.requests.length ∧
       s.lli.responses.length < 8) ∧
    (let s := { live with lli.requests := .laneStatus 9 :: List.replicate 7 (.laneStatus 8)
                          lli.responses := List.replicate 8 ⟨0, .ok, [], false⟩ }
     s.lli.requests = .laneStatus 9 :: List.replicate 7 (.laneStatus 8) ∧ 8 ≤ s.lli.requests.length ∧
       8 ≤ s.lli.responses.length) ∧
    -- the request at the head, the router taking nothing
    (let s := { live with lli.requests := [.laneStart 1], lli.resetAnswer := .waiting }
     s.lli.requests = .laneStart 1 :: [] ∧ routerOpen s = false) := by decide

set_option maxRecDepth 100000 in
theorem witness_router_refusals : Ready State.reset ∧
    parsePayload 0 (ascii "NO_SUCH" ++ [0]) = .unknown ∧ parsePayload 0 (ascii "LANE_START" ++ [0, 1]) = .badSize ∧
    parsePayload 0 (ascii "REFERRAL_ANSWER" ++ [0, 1, 9]) = .badSelector := by decide

/-- A request at the head of the queue is at the router as well. -/
theorem witness_at_head : AtRouter (.laneStart 1) { live with lli.requests := [.laneStart 1, .laneStatus 2] }
    { live with lli.requests := [.laneStatus 2] } := ⟨by decide, Or.inr ⟨[.laneStatus 2], rfl, rfl⟩⟩

theorem witness_weight : (∀ pins, (Instr.weighPresetTare 1 100) ≠ .powerReset pins ∧ (Instr.weighPresetTare 1 100) ≠ .pinReset pins ∧
      (Instr.weighPresetTare 1 100) ≠ .linkReset pins) ∧
    (Instr.weighPresetTare 1 100) ≠ .transmitEnd ∧ live.lli.awaited = none ∧
    ∃ t, exec (.weighPresetTare 1 100) live = .next t ∧ live.wch.detail ≠ t.wch.detail :=
  ⟨fun _ => ⟨nofun, nofun, nofun⟩, by decide, by decide, _, rfl, by decide⟩

theorem witness_resets : live.sst.inFlight = none ∧ writing.sst.inFlight ≠ none := by decide

theorem witness_reset_after_write :
    (let s := { writing with lli.pinReset := true }
     s.sst.inFlight = some ⟨.totals 1 500, 50000⟩ ∧ s.lli.awaited = some .pin) ∧
    (let s := { writing with lli.resetAnswer := .sent }
     s.sst.inFlight = some ⟨.totals 1 500, 50000⟩ ∧ s.lli.awaited = some .link) ∧
    writing.lli.awaited = none := by decide

/-! ## Witnesses: the lane link -/

set_option maxRecDepth 100000 in
theorem witness_frames :
    live.lli.phase = .hunt ∧ (List.replicate 250 (0 : Byte)).length ≤ 250 ∧ ([] : List Byte).length ≤ 250 ∧
    (let s := { live with lli.requests := List.replicate 7 (.laneStatus 8) }
     s.lli.phase = .hunt ∧ s.lli.requests.length < 8) ∧
    (let s := { live with acp.units.u4 := ⟨.other, .unknown, 0⟩, acp.queue := List.replicate 15 ⟨1, 0, [], false⟩ }
     (s.acp.units.get 4).role ≠ .none ∧ (s.acp.units.get 4).presence ≠ .absent ∧ (s.acp.units.get 1).role ≠ .none ∧
     (s.acp.units.get 1).presence ≠ .absent ∧ s.acp.queue.length < 16) ∧
    checkGood 3 [0, 1, 7] [0, 0] = false ∧ checkGood 253 (List.replicate 253 0) [0, 0] = false := by decide

set_option maxRecDepth 100000 in
theorem witness_frames_turned_away :
    (let s := { live with lli.requests := List.replicate 8 (.laneStatus 8)
                          lli.responses := List.replicate 7 ⟨0, .ok, [], false⟩ }
     s.lli.phase = .hunt ∧ 8 ≤ s.lli.requests.length ∧ s.lli.responses.length < 8) ∧
    (let s := { live with lli.requests := List.replicate 8 (.laneStatus 8)
                          lli.responses := List.replicate 8 ⟨0, .ok, [], false⟩ }
     s.lli.phase = .hunt ∧ 8 ≤ s.lli.requests.length ∧ 8 ≤ s.lli.responses.length) ∧
    -- a unit of role NONE, and one ABSENT
    (live.lli.phase = .hunt ∧ (live.acp.units.get 3).role = .none) ∧
    (let s := { live with acp.units.u4 := ⟨.other, .absent, 0⟩ }; s.lli.phase = .hunt ∧ (s.acp.units.get 4).presence = .absent) ∧
    -- a full downstream queue
    (let s := { live with acp.queue := List.replicate 16 ⟨1, 0, [], false⟩ }
     s.lli.phase = .hunt ∧ (s.acp.units.get 1).role ≠ .none ∧ (s.acp.units.get 1).presence ≠ .absent ∧
     16 ≤ s.acp.queue.length) ∧
    -- pairs of unit and kind that no controller sends
    (∀ p ∈ [(0, 0), (0, 4), (1, 1), (4, 5), (5, 4), (255, 255)], p.1 < 256 ∧ p.2 < 256 ∧ ¬(p.1 = 0 ∧ p.2 = 1) ∧
      ¬(1 ≤ p.1 ∧ p.1 ≤ 4 ∧ p.2 = 4)) := by decide

theorem witness_discards :
    (let s := { live with lli.phase := .length }; s.lli.phase ≠ .hunt) ∧
    (let s := { live with lli.phase := .check, lli.rxLength := 3, lli.rxBody := [0, 1, 7] }; s.lli.phase ≠ .hunt) ∧
    (2 : Byte).toNat < 3 ∧ 253 < (254 : Byte).toNat := by decide

theorem witness_transmitter :
    (let s := { live with lli.sending := some (.notice (.supply true)), lli.responses := [⟨3, .ok, [], false⟩] }
     s.lli.sending = some (.notice (.supply true)) ∧ s.lli.resetAnswer ≠ .sent ∧
     s.lli.responses = ⟨3, .ok, [], false⟩ :: []) ∧
    (let s := { live with lli.sending := some (.response ⟨3, .ok, [], false⟩), lli.notices := [.startup .power, .supply true] }
     (∀ r, TxFrame.response ⟨3, .ok, [], false⟩ = .response r → r.ofReset = false) ∧ s.lli.responses = [] ∧
     ascending s.lli.notices ∧ Notice.startup .power ∈ s.lli.notices ∧ enabled s.lli.mask (.startup .power) = true ∧
     (∀ m ∈ s.lli.notices, enabled s.lli.mask m = true → (Notice.startup .power).kind ≤ m.kind)) ∧
    (let s := { live with
       lli.sending := some (.accUp ⟨1, 0, [1]⟩), lli.notices := [.startup .power], lli.mask := Vector.replicate 15 false
       lli.accUps := [⟨1, 0, [2]⟩] }
     (∀ r, TxFrame.accUp ⟨1, 0, [1]⟩ = .response r → r.ofReset = false) ∧ s.lli.responses = [] ∧
     (∀ m ∈ s.lli.notices, enabled s.lli.mask m = false) ∧ s.lli.accUps = ⟨1, 0, [2]⟩ :: []) ∧
    (let s := { live with lli.sending := some (.accUp ⟨1, 0, [1]⟩) }
     s.lli.responses = [] ∧ (∀ m ∈ s.lli.notices, enabled s.lli.mask m = false) ∧ s.lli.accUps = []) :=
  ⟨by decide, ⟨by rintro r ⟨⟩; rfl, by decide, by simp [ascending, Notice.kind], by decide, by decide, by decide⟩,
    ⟨nofun, by decide, by decide, by decide⟩, by decide⟩

theorem witness_controller_reset : Ready State.reset ∧
    (let s := { live with lli.resetAnswer := .sent }; s.sst.inFlight = none ∧ s.lli.resetAnswer = .sent) ∧
    (let s := { live with lli.resetAnswer := .waiting, lli.sending := some (.response ⟨1, .ok, [], true⟩) }
     s.sst.inFlight = none ∧ ∃ r, s.lli.sending = some (.response r) ∧ r.ofReset = true) :=
  ⟨by decide, by decide, by decide, _, rfl, rfl⟩

theorem witness_lane_start : Ready State.reset ∧ State.reset.lli.lane = .unconfigured ∧ Ready live ∧ live.lli.lane = .ready ∧
    State.reset.lli.startupDue = some 1000000 := by decide

theorem witness_set_param : Ready live ∧ paramNamed (ascii "NO_SUCH") = none ∧
    paramNamed (ascii "MASK_LEAD_DIGITS") = some .maskLeadDigits ∧ paramNamed (ascii "FILTER_LENGTH") = some .filterLength ∧
    paramNamed (ascii "DISPLAY_MIRROR") = some .displayMirror ∧ paramNamed (ascii "ACCESSORY_ROLES") = some .accessoryRoles :=
  by decide

theorem witness_plain_parameters : ∀ x ∈ [("STABILITY_COUNT", Param.stabilityCount), ("CAPTURE_TIMEOUT", .captureTimeout),
    ("DISTURBANCE_SETTLE", .disturbanceSettle), ("CARD_EXPIRY", .cardExpiry), ("AUTH_TIMEOUT", .authTimeout),
    ("REFERRAL_TIMEOUT", .referralTimeout), ("DRAWER_PULSE", .drawerPulse), ("DRAWER_CONFIRM", .drawerConfirm),
    ("DRAWER_OVERDUE", .drawerOverdue), ("PRINT_DENSITY", .printDensity), ("LINE_PITCH", .linePitch),
    ("AMOUNT_DECIMALS", .amountDecimals), ("MASK_LEAD_DIGITS", .maskLeadDigits), ("CLOSE_BEFORE_SALE", .closeBeforeSale)],
    paramNamed (ascii x.1) = some x.2 := by decide

/-- R158: each role byte, and the lowest unit keeps a role given to two. -/
theorem test_roles : rolesOf 0x01010203 = [.scanner, .other, .display, .other] ∧ rolesOf 0x00020204 = [.none, .display, .other, .other] := by
  decide

/-- Unit 3 has NONE in a live part, and this value gives it the role OTHER. -/
theorem witness_later : (live.acp.units.get 3).role = .none ∧ (rolesOf 0x01020300)[2]? = some .other := by decide

/-! ## Witnesses: the weighing channel -/

theorem witness_samples :
    (let s := { live with wch.state := .fault }; s.wch.state = .fault) ∧
    (let s := { State.reset with wch.count := 14 }
     s.wch.state ≠ .fault ∧ min 64 (s.wch.count + 1) < s.lli.params.filterLength) ∧
    (let s := { live with wch.count := 15, wch.ring := List.replicate 15 182112 }
     s.wch.state = .running ∧ s.wch.refill = none ∧ s.record? = some record ∧
     s.lli.params.filterLength ≤ min 64 (s.wch.count + 1)) ∧ 0 < 1 ∧
    (let s := { live with wch.state := .test, wch.testOffset := some 1600000 }
     s.wch.state = .test ∧ s.wch.testOffset = some 1600000) := by decide

theorem witness_price : (0 : Int) ≤ 0 ∧ (0 : Int) ≤ 150000 ∧
    (let c : Capture := ⟨4011, .scan, some apples, 0, 0⟩
     c.item = some apples ∧ apples.refer = false ∧ price figures.certified apples.unitPrice apples.basis ≤ 99999999) ∧
    -- the greatest price that stays within the bound of a line
    (let e := { apples with basis := .per100g, unitPrice := 999999 }
     price 99990 e.unitPrice e.basis ≤ 99999999) := by decide

theorem witness_stability : (∃ w : Wch, w.window ≠ .closed) ∧ (∃ w : Wch, w.stabRef = none) ∧
    (live.wch.stabRef = some 3852 ∧ ((10 : Nat) : Int) < |(3863 : Int) - 3852|) ∧
    (live.wch.window = .closed ∧ live.wch.stabRef = some 3852 ∧ |(3862 : Int) - 3852| ≤ ((10 : Nat) : Int)) :=
  ⟨⟨{ live.wch with window := .opened none }, by decide⟩, ⟨State.reset.wch, rfl⟩, by decide, by decide⟩

/-- The channel in this state, its next sample `v` one of a full ring of the same, the reference at `ref`. -/
def updating (state : ChannelState) (refill : Option RestartCause) (v ref : Int) : State :=
  { live with wch.state := state, wch.refill := refill, wch.ring := List.replicate 64 v, wch.stabRef := some ref }

theorem stable_of {v : Int} {s : State} (ref : Int) (h : s.wch.window = .closed ∧ s.wch.stabRef = some ref ∧
    s.record? = some record ∧ |record.gross s.wch.zo (s.formed v) - ref| ≤ 20 ∧
    s.lli.params.stabilityCount ≤ min 200 (s.wch.stabCount + 1)) : StableAt v s :=
  ⟨h.1, ⟨ref, h.2.1, by rw [h.2.2.1]; exact h.2.2.2.1⟩, h.2.2.2.2⟩

theorem unstable_of {v : Int} {s : State} (h : s.wch.window ≠ .closed ∨
    ¬s.lli.params.stabilityCount ≤ min 200 (s.wch.stabCount + 1)) : ¬StableAt v s :=
  fun hs => h.elim (absurd hs.1) (absurd hs.2.2)

theorem witness_update_parameters : ParamsKept live := by unfold ParamsKept; decide

/-- The refills that end at the next update: in FAULT, in CAL, in TEST, in RUNNING and in ZERO_PENDING. -/
theorem witness_refills : ∀ cause ∈ [RestartCause.reset, .weighRestart, .testOn, .testOff, .calEnter, .calLeave],
    let s := updating .starting (some cause) 120480 0
    s.wch.state ≠ .fault ∧ s.lli.params.filterLength ≤ min 64 (s.wch.count + 1) ∧ s.wch.refill = some cause ∧
    s.sst.state = .intact ∧ s.sst.image.record.valid = true ∧ s.wch.zi ≠ none ∧ s.record? = some record ∧
    { s with wch.zi := none }.wch.zi = none ∧ { s with sst.state := .damaged }.sst.state ≠ .intact ∧
    { s with sst.image.record.e1 := 0 }.sst.image.record.valid = false := by decide

/-- An initial zero at the edge of its range, 240,000 counts from Zc, and one beyond it; one not stable yet. -/
theorem witness_initial_zero :
    (let s := updating .zeroPending none 360000 14970
     s.wch.refill = none ∧ s.wch.state = .zeroPending ∧ s.record? = some record ∧ StableAt 360000 s ∧
     (s.formed 360000 - record.zc).natAbs ≤ (record.counts record.max 10).natAbs) ∧
    (let s := updating .zeroPending none 360001 14970
     StableAt 360001 s ∧ (record.counts record.max 10).natAbs < (s.formed 360001 - record.zc).natAbs) ∧
    (let s := { updating .zeroPending none 360000 14970 with wch.stabCount := 78 }; ¬StableAt 360000 s) :=
  ⟨⟨rfl, rfl, by decide, stable_of 14970 (by decide), by decide⟩, ⟨stable_of 14970 (by decide), by decide⟩, unstable_of (by decide)⟩

/-- A WEIGHED tare at a quarter of an interval, 5 fine units, and just above it; a light pan, and one at Min. -/
theorem witness_clearing :
    (let s := { updating .running none 120560 0 with wch.tare := .weighed 200 }
     s.record? = some record ∧ s.wch.refill = none ∧ s.wch.state ≠ .zeroPending ∧ s.wch.tare = .weighed 200 ∧
     s.wch.capture = none ∧ StableAt 120560 s ∧ (record.gross s.wch.zo (s.formed 120560)).natAbs * 4 ≤ 10 * record.e1) ∧
    (let s := { updating .running none 120576 0 with wch.tare := .weighed 200 }
     10 * record.e1 < (record.gross s.wch.zo (s.formed 120576)).natAbs * 4) ∧
    (let s := { updating .running none 126704 389 with wch.interlock := true }
     s.wch.refill = none ∧ s.record? = some record ∧
     (record.figures s.wch.zo s.wch.tare (s.formed 126704)).certified < (20 * record.e1 * 10 : Nat)) ∧
    (let s := { updating .running none 126720 390 with wch.interlock := true }
     ((20 * record.e1 * 10 : Nat) : Int) ≤ (record.figures s.wch.zo s.wch.tare (s.formed 126720)).certified ∧
     s.wch.capture = none ∧ -8388608 ∉ s.newest 126720) ∧ (-8388608 : Int) ∈ live.newest (-8388608) :=
  ⟨⟨by decide, rfl, by decide, rfl, rfl, stable_of 0 (by decide), by decide⟩, by decide, by decide, by decide, by decide⟩

/-- A step of CAL: it waits, averages, and makes its candidate of the 256th sample. -/
theorem witness_calibration_steps :
    let stepping : CalRun → State := fun y =>
      { updating .cal none 182112 3852 with wch.cal := some ⟨some y, some 120000, none, none, false⟩ }
    (∀ y ∈ [(⟨.zero, false, 0, 0, 9⟩ : CalRun), ⟨.zero, true, 0, 254, 9⟩, ⟨.zero, true, 0, 255, 9⟩, ⟨.span 3881, true, 46438560, 255, 9⟩,
        ⟨.span 6212, true, 46438560, 255, 9⟩],
      (stepping y).wch.state ≠ .fault ∧ (stepping y).lli.params.filterLength ≤ min 64 ((stepping y).wch.count + 1) ∧
      (stepping y).wch.state = .cal ∧ (stepping y).wch.refill = none ∧ (stepping y).wch.capture = none ∧
      (stepping y).wch.cal = some ⟨some y, some 120000, none, none, false⟩) ∧
    StableAt 182112 (stepping ⟨.zero, false, 0, 0, 9⟩) ∧
    (∀ x ∈ (stepping ⟨.zero, false, 0, 0, 9⟩).newest 182112, ¬(x = 8388607 ∨ x = -8388608)) ∧
    (∃ x ∈ ({ stepping ⟨.zero, false, 0, 0, 9⟩ with wch.ring := [8388607] } : State).newest 182112, x = 8388607) ∧
    ¬StableAt 182112 { stepping ⟨.zero, true, 0, 255, 9⟩ with wch.window := .opened none } ∧
    -- the average of 182,112 stands 62,112 counts above the candidate zero: the span of 6,211 g is taken, 6,212 g is not
    roundHalfAway (46438560 + 182112) 256 - 120000 = 62112 ∧
    ((10 * 3881 : Nat) : Int) ≤ 62112 ∧ (62112 : Int) < (10 * 6212 : Nat) :=
  ⟨by decide, stable_of 3852 (by decide), by decide, ⟨8388607, by decide, rfl⟩, unstable_of (by decide), by decide, by decide, by decide⟩

theorem witness_converter_watch :
    State.reset.wch.watch = some 12500 ∧ State.reset.wch.state ≠ .fault ∧
    (let s := { capturing with wch.watch := some 99 }
     s.wch.watch = some 99 ∧ s.wch.state ≠ .fault ∧ s.wch.capture = some ⟨4011, .request 5, some apples, 0, 3000000⟩) ∧
    (let s := { calibrating { candidates with run := some ⟨.zero, false, 0, 0, 7⟩ } with wch.watch := some 99 }
     s.wch.watch = some 99 ∧ s.wch.state ≠ .fault ∧
     s.wch.cal = some { candidates with run := some ⟨.zero, false, 0, 0, 7⟩ }) := by decide

theorem witness_tracking :
    (let g : Figures := ⟨10, .none, 10, 0, 2⟩
     let up : Update := ⟨120640, false, false, some g⟩
     let s := { live with wch.trackDue := some 500, wch.last := some up }
     s.wch.trackDue = some 500 ∧ s.wch.state = .running ∧ s.wch.last = some up ∧ up.figures = some g ∧
     s.wch.zi = some 480 ∧ s.record? = some record ∧ s.wch.stable = true ∧ s.wch.window = .closed ∧ s.wch.tare = .none ∧
     s.wch.capture = none ∧ g.gross.natAbs ≤ 5 * record.e1) ∧
    (let s := { live with wch.trackDue := some 500, wch.stabCount := 0 }
     s.wch.trackDue = some 500 ∧ s.wch.state = .running ∧ s.wch.stable = false) ∧
    (let s := { live with wch.window := .opened (some 100000) }; s.wch.window = .opened (some 100000)) := by decide

/-- The step beyond the zero band's edge, one that ends on it, and one inside: 48,000 counts around the zero at 480. -/
theorem witness_zero_limit :
    let tracking : Int → Figures → State := fun zo g =>
      { live with wch.trackDue := some 500, wch.zo := zo, wch.last := some ⟨120480, false, false, some g⟩ }
    let g : Figures := ⟨1, .none, 1, 0, 2⟩
    let up : Update := ⟨120480, false, false, some g⟩
    (tracking 48480 g).wch.last = some up ∧ up.figures = some g ∧ g.gross.natAbs ≤ 5 * record.e1 ∧
    480 + (record.counts record.max 50).natAbs < 48480 + record.counts g.gross 10 ∧
    480 + (record.counts record.max 50).natAbs = 48464 + record.counts g.gross 10 ∧
    48463 + record.counts g.gross 10 < 480 + (record.counts record.max 50).natAbs ∧
    0 < record.counts g.gross 10 ∧ record.counts g.gross 10 ≤ record.counts record.e1 2 := by decide

theorem witness_tracking_skips :
    (let s := { live with wch.trackDue := some 500, wch.window := .opened none }
     s.wch.trackDue = some 500 ∧ s.wch.state = .running ∧ s.wch.window ≠ .closed) ∧
    (let s := { live with wch.trackDue := some 500, wch.tare := .preset 120 }; s.wch.state = .running ∧ s.wch.tare ≠ .none) ∧
    (let s := { capturing with wch.trackDue := some 500 }; s.wch.state = .running ∧ s.wch.capture ≠ none) ∧
    (let s := { live with wch.trackDue := some 500, wch.zi := none }; s.wch.state = .running ∧ s.wch.zi = none) ∧
    (let s := { live with wch.trackDue := some 500, sst.image.record := ⟨0, 0, 0, 0, 0, 0, 0⟩ }
     s.wch.state = .running ∧ s.record? = none) ∧
    (let s := { live with wch.trackDue := some 500, wch.last := some update.unreported }
     s.wch.state = .running ∧ s.wch.last = some update.unreported ∧ update.unreported.figures = none) ∧
    (let g : Figures := ⟨11, .none, 11, 20, 2⟩
     let up : Update := ⟨120656, false, false, some g⟩
     let s := { live with wch.trackDue := some 500, wch.last := some up }
     s.wch.state = .running ∧ s.wch.last = some up ∧ up.figures = some g ∧ s.record? = some record ∧
     5 * record.e1 < g.gross.natAbs) := by decide

theorem witness_capture_timeout : capturing.wch.capture = some ⟨4011, .request 5, some apples, 0, 3000000⟩ ∧
    capturing.acp.held = none ∧
    (let s := { capturing with acp.held := some ⟨⟨1, 0, ascii "A2004011000002"⟩, 4011⟩ }
     s.wch.capture = some ⟨4011, .request 5, some apples, 0, 3000000⟩ ∧
     s.acp.held = some ⟨⟨1, 0, ascii "A2004011000002"⟩, 4011⟩ ∧ s.wch.state = .running ∧ s.openSale?.isSome = true ∧
     ∀ e ∈ s.tbs.findItem 4011, e.basis ≠ .each) ∧ (1 ≤ 1 ∧ 999999 ≤ 999999) := by decide

theorem witness_restarts : Ready live ∧ (live.wch.state ≠ .test ∧ live.wch.state ≠ .cal) ∧
    (live.sru.openSlot = none ∧ live.sru.closing = none ∧ live.wch.state = .running) ∧
    (let s := { live with wch.state := .test }; Ready s ∧ s.wch.state = .test) ∧
    (Ready selling ∧ selling.sru.openSlot ≠ none) ∧
    (let s := calibrating candidates; Ready s ∧ s.wch.state = .cal ∧ s.wch.state ≠ .running ∧ s.wch.state ≠ .test) ∧
    (Ready capturing ∧ capturing.wch.state ≠ .test ∧ capturing.wch.state ≠ .cal) := by decide

theorem witness_zero :
    -- the band is a fiftieth of Max: 48000 counts around the zero at 480
    (let up : Update := ⟨168480, false, false, some figures⟩
     let s := { live with wch.last := some up }
     Ready s ∧ s.wch.state = .running ∧ s.wch.capture = none ∧ s.wch.tare = .none ∧ s.wch.window = .closed ∧
     s.wch.stable = true ∧ s.wch.last = some up ∧ s.wch.zi = some 480 ∧ s.record? = some record ∧ up.oorHigh = false ∧
     up.oorLow = false ∧ (up.f - record.zc - 480).natAbs ≤ (record.counts record.max 50).natAbs) ∧
    (let up : Update := ⟨168481, false, false, some figures⟩
     let s := { live with wch.last := some up }
     Ready s ∧ s.wch.last = some up ∧ (record.counts record.max 50).natAbs < (up.f - record.zc - 480).natAbs) := by decide

theorem witness_tare :
    (Ready live ∧ live.wch.state = .running ∧ live.wch.capture = none ∧ live.wch.window = .closed ∧
     live.wch.stable = true ∧ live.wch.ind.overload = false ∧ live.wch.ind.underload = false ∧
     live.wch.last = some update ∧ update.figures = some figures ∧ live.record? = some record ∧ 0 < figures.gross ∧
     figures.gross ≤ (record.max1 * 10 : Nat) ∧ 0 < roundHalfAway figures.gross (10 * record.e1)) ∧
    (let g : Figures := ⟨60001, .none, 60001, 60000, 5⟩
     let s := { live with wch.last := some ⟨1080496, false, false, some g⟩ }
     Ready s ∧ s.wch.last = some ⟨1080496, false, false, some g⟩ ∧ (record.max1 * 10 : Nat) < g.gross) ∧
    (let g : Figures := ⟨0, .none, 0, 0, 2⟩
     let s := { live with wch.last := some ⟨120480, false, false, some g⟩ }
     Ready s ∧ s.wch.last = some ⟨120480, false, false, some g⟩ ∧ g.gross ≤ 0) ∧
    -- 6000 g, the greatest gross that is tared, and 1 g, the least
    roundHalfAway 60000 (10 * record.e1) = 3000 ∧ 0 < roundHalfAway 10 (10 * record.e1) := by decide

theorem witness_preset_tare :
    (let s := { live with wch.state := .test }; Ready s ∧ s.wch.state ≠ .running) ∧
    (Ready capturing ∧ capturing.wch.state = .running ∧ capturing.wch.capture ≠ none) ∧
    (Ready live ∧ live.wch.state = .running ∧ live.wch.capture = none ∧ live.record? = some record) ∧
    record.e1 * (roundHalfAway (0 : Nat) record.e1).toNat = 0 ∧ record.e1 * (roundHalfAway (1 : Nat) record.e1).toNat ≠ 0 ∧
    record.max1 < record.e1 * (roundHalfAway (65535 : Nat) record.e1).toNat ∧
    live.wch.state ≠ .cal ∧ (let s := calibrating candidates; Ready s ∧ s.wch.state = .cal) ∧
    capturing.wch.state ≠ .cal := by decide

theorem witness_capture : Ready live ∧ Ready selling ∧ Ready capturing ∧ (0 < 1 ∧ 999999 < 1000000) ∧
    capturing.wch.capture ≠ none ∧ (live.wch.capture = none ∧ live.openSale? = none) ∧
    (selling.wch.capture = none ∧ selling.wch.state = .running ∧ selling.openSale? ≠ none) ∧
    (selling.tbs.findItem 3001 = some roll ∧ roll.basis = .each) ∧
    (∀ e ∈ selling.tbs.findItem 4011, e.basis ≠ .each) ∧ (∀ e ∈ selling.tbs.findItem 999999, e.basis ≠ .each) ∧
    (∀ e ∈ selling.tbs.findItem 1, e.basis ≠ .each) ∧
    capturing.wch.capture = some ⟨4011, .request 5, some apples, 0, 3000000⟩ ∧ selling.wch.capture = none := by decide

/-- Preset tares of 0 g, which rounds to none, of 1 g, which rounds to 2 g, and of 6,001 g, held to Max1. -/
theorem witness_item_tare : ∀ p ∈ ([0, 1, 6001] : List Nat),
    let e := { apples with presetTare := some p }
    let s := { selling with tbs.item.active := [e] }
    Ready s ∧ s.wch.capture = none ∧ s.wch.state = .running ∧ s.openSale? ≠ none ∧ s.tbs.findItem 4011 = some e ∧
    e.basis ≠ .each ∧ s.wch.tare = .none ∧ s.record? = some record ∧
    min (record.e1 * (roundHalfAway p record.e1).toNat) record.max1 = (if p = 0 then 0 else if p = 1 then 2 else 6000) := by
  decide

theorem witness_capture_completes :
    (let c : Capture := ⟨4011, .request 5, some apples, 0, 3000000⟩
     let o := sale .opened []
     capturing.wch.capture = some c ∧ update.figures = some figures ∧ capturing.record? = some record ∧
     capturing.openSale? = some o ∧ c.item = some apples ∧ capturing.wch.state = .running ∧
     capturing.wch.ind.stable = true ∧ capturing.wch.window = .closed ∧ capturing.wch.ind.overload = false ∧
     capturing.wch.ind.underload = false ∧ capturing.wch.interlock = false ∧
     ((20 * record.e1 * 10 : Nat) : Int) ≤ figures.certified ∧ figures.certified ≤ (record.max * 10 : Nat) ∧
     apples.refer = false ∧ price figures.certified apples.unitPrice apples.basis ≤ 99999999 ∧ o.lines.length < 200 ∧
     0 ≤ o.itemTotal ∧ o.itemTotal + price figures.certified apples.unitPrice apples.basis ≤ 999999999 ∧
     capturing.acp.held = none) ∧
    -- Min and Max of this record: 40 g and 15 kg
    ((20 * record.e1 * 10 : Nat) : Int) ≤ 400 ∧ (150000 : Int) ≤ (record.max * 10 : Nat) := by decide

/-- One sample more completes the capture of this item into this sale, with 385.2 g on the platform. -/
def completing (item : Option ItemEntry) (o : Sale) : State :=
  { withSale o with
    wch.capture := some ⟨4011, .request 5, item, 0, 3000000⟩
    wch.ring := List.replicate 64 182112
    wch.stabCount := 79 }

theorem witness_captures_at (item : Option ItemEntry) (o : Sale) (h : o.state = .opened) :
    CapturesAt 182112 record ⟨4011, .request 5, item, 0, 3000000⟩ o figures (completing item o) := by
  have hc : (completing item o).openSale? = some o := by simp [completing, withSale, State.openSale?, h]
  have hr : (completing item o).record? = some record := by
    show live.record? = some record
    decide
  refine ⟨rfl, rfl, hr, rfl, hc, rfl, rfl, rfl, ?_, ?_, ⟨3852, rfl, by decide⟩, ?_, by decide, by decide, by decide,
    by decide⟩
  · show live.lli.params.filterLength ≤ min 64 (live.wch.count + 1)
    decide
  · let newest := ((182112 :: List.replicate 64 (182112 : Int)).take 64).take live.lli.params.filterLength
    show 8388607 ∉ newest ∧ -8388608 ∉ newest ∧
      figures = record.figures live.wch.zo live.wch.tare (roundHalfAway newest.sum live.lli.params.filterLength)
    decide
  · show live.lli.params.stabilityCount ≤ min 200 (79 + 1)
    decide

set_option maxRecDepth 100000 in
theorem witness_capture_results :
    -- POSTED, at the last free line
    ((List.replicate 199 posted).length < 200 ∧ apples.refer = false ∧ price figures.certified 1299 .perKg = 501 ∧
     0 ≤ (sale .opened []).itemTotal + 501 ∧ (sale .opened []).itemTotal + 501 ≤ 999999999) ∧
    -- REFERRED: no item, an item marked REFER, and a place for the referral
    ({ apples with refer := true }.refer = true ∧ (sale .opened []).lines.length < 200 ∧
     (sale .opened []).referrals.length < 4) ∧
    -- LIMIT: no line, no referral, and a total out of range
    (200 ≤ (List.replicate 200 posted).length ∧ 4 ≤ (List.replicate 4 (⟨1, .refer, 0⟩ : Referral)).length ∧
     999999999 < (sale .opened [line 1 .text .posted 999999999]).itemTotal + 501) := by decide

/-- 15 kg at 9,999.99 for 100 g stay within the capture band and are priced above 99,999,999. -/
theorem witness_price_limit :
    let e := { apples with basis := .per100g, unitPrice := 999999 }
    let c : Capture := ⟨4011, .request 5, some e, 0, 3000000⟩
    let g : Figures := ⟨150000, .none, 150000, 150000, 5⟩
    CapturesAt 2520480 record c (sale .opened []) g
      { completing (some e) (sale .opened []) with wch.ring := List.replicate 64 2520480, wch.stabRef := some 150000 } ∧
    99999999 < price g.certified e.unitPrice e.basis :=
  ⟨⟨rfl, rfl, rfl, rfl, rfl, rfl, rfl, rfl, by decide, ⟨by decide, by decide, by decide⟩, ⟨150000, rfl, by decide⟩,
    by decide, by decide, by decide, by decide, by decide⟩, by decide⟩

/-! ## Witnesses: calibration and the sealed store -/

theorem witness_cal_switch : live.wch.calSwitchClosed = false ∧
    (let s := { live with wch.calSwitchClosed := true }; s.wch.calSwitchClosed = true ∧ s.wch.state ≠ .cal) ∧
    (let s := calibrating candidates
     s.wch.calSwitchClosed = true ∧ s.wch.state = .cal ∧ s.sst.commitInFlight = false) ∧
    (committing.wch.calSwitchClosed = true ∧ committing.wch.state = .cal ∧ committing.sst.commitInFlight = true ∧
     committing.wch.cal = some candidates) := by decide

theorem witness_cal_enter :
    (let s := { live with wch.calSwitchClosed := true }
     Ready s ∧ s.wch.calSwitchClosed = true ∧ s.wch.state ≠ .cal ∧ s.sst.state ≠ .fault ∧
     ¬(s.wch.state = .fault ∧ s.wch.faultCause = some .converter) ∧ s.wch.state ≠ .test ∧ s.sru.openSlot = none ∧
     s.sru.closing = none ∧ s.wch.capture = none ∧ s.sst.inFlight = none) ∧
    (Ready live ∧ live.wch.calSwitchClosed = false) := by decide

theorem witness_cal_leave :
    (let s := calibrating { candidates with run := some ⟨.zero, true, 5, 1, 7⟩ }
     Ready s ∧ s.wch.state = .cal ∧ s.sst.commitInFlight = false) ∧
    (Ready live ∧ live.wch.state ≠ .cal) ∧
    (Ready committing ∧ committing.wch.state = .cal ∧ committing.sst.commitInFlight = true) := by decide

theorem witness_cal_steps :
    (let s := calibrating candidates
     Ready s ∧ s.wch.calSwitchClosed = true ∧ s.wch.state = .cal ∧ s.wch.cal = some candidates ∧ candidates.run = none ∧
     s.sst.commitInFlight = false ∧ candidates.zero ≠ none ∧ (1 ≤ 1500 ∧ 15000 ≤ 30000) ∧
     (∀ g ∈ candidates.ranges, g.max ≤ 10 * 1500 ∧ 15000 ≤ g.max)) ∧
    -- with no candidate ranges the record of the store limits the mass, in a DAMAGED store too; an invalid one does not
    (let c := { candidates with ranges := none }
     let s := { calibrating c with sst.state := .damaged }
     Ready s ∧ s.wch.cal = some c ∧ c.ranges = none ∧ s.sst.image.record.valid = true ∧
     s.sst.image.record.max ≤ 10 * 1500 ∧ 10 * 1499 < s.sst.image.record.max ∧ s.sst.image.record.max < 15001) ∧
    (let c := { candidates with ranges := none }
     let s := { calibrating c with sst.image.record.e1 := 0 }
     Ready s ∧ s.wch.cal = some c ∧ s.sst.image.record.valid = false) ∧
    (let c := { candidates with zero := none }
     Ready (calibrating c) ∧ (calibrating c).wch.cal = some c ∧ c.run = none ∧ c.zero = none) ∧
    rangesValid 6000 2 15000 5 = true ∧ rangesValid 30000 5 30000 5 = true ∧ rangesValid 30000 5 30001 5 = false ∧
    (let y : CalRun := ⟨.zero, false, 0, 0, 30000000⟩
     let s := calibrating { candidates with run := some y }
     s.wch.cal = some { candidates with run := some y }) := by decide

theorem witness_cal_commit :
    (let s := calibrating candidates
     Ready s ∧ s.wch.calSwitchClosed = true ∧ s.wch.state = .cal ∧ s.wch.cal = some candidates ∧ candidates.run = none ∧
     candidates.zero = some 120000 ∧ candidates.span = some (1600000, 10000) ∧
     candidates.ranges = some ⟨6000, 2, 15000, 5⟩ ∧ 15000 ≤ 10 * 10000 ∧ 10000 ≤ 15000 ∧ s.sst.inFlight = none ∧
     s.sst.pendingTotals = false ∧ s.pbu.warning = false) ∧
    (let c := { candidates with span := some (1600000, 15001) }
     Ready (calibrating c) ∧ (calibrating c).wch.cal = some c ∧ c.run = none ∧ 15000 < 15001) ∧
    (let s := { calibrating candidates with sst.inFlight := some ⟨.totals 1 1, 0⟩ }
     Ready s ∧ s.sst.inFlight ≠ none) ∧
    (let s := { calibrating candidates with pbu.warning := true }; Ready s ∧ s.pbu.warning = true) ∧
    (let s := { calibrating candidates with sst.state := .damaged }; Ready s ∧ s.sst.state = .damaged) := by decide

theorem witness_write_complete :
    (writing.sst.inFlight = some ⟨.totals 1 500, 50000⟩ ∧ writing.lli.awaited = none) ∧
    (committing.sst.inFlight = some ⟨.calibration record 1, 50000⟩ ∧ committing.lli.awaited = none ∧
     committing.wch.cal = some candidates ∧ committing.wch.state = .cal ∧ candidates.run = none ∧
     candidates.pendingLeave = false) ∧
    (let c := { candidates with pendingLeave := true }
     let s := { committing with wch.cal := some c }
     s.wch.cal = some c ∧ c.run = none ∧ c.pendingLeave = true) ∧
    (let w : Write := ⟨.whole ⟨record, 1, 0, 0⟩, 50000⟩
     let s := { calibrating candidates with sst.inFlight := some w, sst.state := .damaged }
     s.sst.inFlight = some w ∧ s.lli.awaited = none) := by decide

theorem witness_write_then_check : writing.sst.inFlight = some ⟨.totals 1 500, 50000⟩ ∧ writing.lli.awaited = none ∧
    writing.sst.pendingTotals = false ∧ ∃ t, exec .writeComplete writing = .next t := ⟨by decide, by decide, by decide, _, rfl⟩

/-- A pending totals write that starts next, one that the supply warning holds, and one that CONTROLLER_RESET keeps. -/
theorem witness_pending_writes :
    (let s := { writing with sst.pendingTotals := true }
     s.sst.inFlight = some ⟨.totals 1 500, 50000⟩ ∧ s.lli.awaited = none ∧ s.sst.pendingTotals = true ∧
     s.pbu.warning = false ∧ s.lli.resetAnswer = .none) ∧
    (let s := { writing with sst.pendingTotals := true, pbu.warning := true }
     s.lli.awaited = none ∧ s.pbu.warning = true) ∧
    (let s := { writing with sst.pendingTotals := true, lli.resetAnswer := .waiting }
     s.lli.awaited = none ∧ s.lli.resetAnswer ≠ .none) := by decide

theorem witness_write_timeout :
    (writing.sst.inFlight = some ⟨.totals 1 500, 50000⟩ ∧ writing.lli.awaited = none) ∧
    (∀ n total, WriteData.calibration record 1 ≠ .totals n total) := ⟨by decide, nofun⟩

/-! ## Witnesses: the sale -/

/-- A line that waits for an answer. -/
def waiting : Line := { line 2 .item .referred 0 with plu := some 9999, quantity := some 1 }

/-- A sale with both lines and the referral. -/
def referring : Sale := { sale .opened [posted, waiting] with referrals := [⟨2, .missing, 120000000⟩] }

/-- A sale in TENDERING with cash paid in part. -/
def tendering : Sale := sale .tendering [posted, line 2 .cash .posted 200]

/-- A sale in AUTH_WAIT for what is left of it, or for less. -/
def authorizing (amount : Nat) : Sale := { sale .authWait [posted] with cardTender := some ⟨amount, 7, 90000000⟩ }

theorem witness_sale_open :
    (Ready live ∧ live.lli.lane = .ready ∧ live.sru.openSlot = none ∧ live.tlc.state = .closed ∧ 1 ≤ live.sru.nextTag ∧
     live.sru.nextTag ≤ 65535 ∧ live.sru.stack.length ≤ 3) ∧
    (let s := { live with sru.nextTag := 65535, sru.stack := List.replicate 3 (sale .suspended []) }
     Ready s ∧ s.sru.nextTag ≤ 65535 ∧ s.sru.stack.length ≤ 3) ∧
    (let s := { live with tlc.state := .jammed }
     Ready s ∧ s.lli.params.closeBeforeSale = true ∧ s.tlc.state ≠ .closed) := by decide

theorem witness_item_add :
    (Ready selling ∧ selling.openSale? = some (sale .opened []) ∧ (1 ≤ 1 ∧ 999 ≤ 999) ∧
     selling.tbs.findItem 3001 = some roll ∧ roll.basis = .each ∧ roll.refer = false ∧ roll.unitPrice * 999 ≤ 99999999 ∧
     (sale .opened []).lines.length < 200 ∧ 0 ≤ (sale .opened []).itemTotal + (roll.unitPrice * 999 : Nat) ∧
     (sale .opened []).itemTotal + (roll.unitPrice * 999 : Nat) ≤ 999999999) ∧
    (let e := { roll with unitPrice := 999999 }
     let s := { selling with tbs.item.active := [e] }
     s.tbs.findItem 3001 = some e ∧ 99999999 < e.unitPrice * 101) ∧
    (selling.tbs.findItem 9999 = none ∧ (sale .opened []).referrals.length < 4) ∧
    (selling.tbs.findItem 4011 = some apples ∧ apples.basis ≠ .each) := by decide

set_option maxRecDepth 100000 in
theorem witness_item_add_refusals :
    live.openSale? = none ∧ selling.openSale? = some (sale .opened []) ∧ (0 < 1 ∧ 999999 < 1000000 ∧ 999 < 1000) ∧
    (let e := { roll with refer := true }
     let s := { selling with tbs.item.active := [e] }
     Ready s ∧ s.openSale? = some (sale .opened []) ∧ s.tbs.findItem 3001 = some e ∧ e.basis = .each ∧ e.refer = true ∧
     (sale .opened []).lines.length < 200 ∧ (sale .opened []).referrals.length < 4) ∧
    200 ≤ (sale .opened (List.replicate 200 posted)).lines.length ∧
    4 ≤ ({ sale .opened [] with referrals := List.replicate 4 ⟨1, .refer, 0⟩ } : Sale).referrals.length ∧
    (sale .opened [line 1 .text .posted (-250)]).itemTotal + (249 * 1 : Nat) < 0 ∧
    999999999 < (sale .opened [line 1 .text .posted 999999751]).itemTotal + (249 * 1 : Nat) := by decide

theorem witness_item_text : (Ready live ∧ live.openSale? = none) ∧
    (Ready selling ∧ selling.openSale? = some (sale .opened [])) ∧
    (99999999 < (100000000 : Int).natAbs ∧ ([] : List Byte).length ≤ 24) ∧
    ((99999999 : Int).natAbs ≤ 99999999 ∧ 24 < (List.replicate 25 (65 : Byte)).length) ∧
    (sale .opened []).itemTotal + (-1) < 0 ∧
    ((sale .opened []).lines.length < 200 ∧ (List.replicate 24 (65 : Byte)).length ≤ 24 ∧
     0 ≤ (sale .opened []).itemTotal + 99999999 ∧ (sale .opened []).itemTotal + 99999999 ≤ 999999999) := by decide

theorem witness_line_void :
    (let s := withSale (sale .opened [posted])
     Ready s ∧ s.sru.openSlot = some (sale .opened [posted]) ∧ (sale .opened [posted]).line? 2 = none ∧
     (sale .opened [posted]).line? 1 = some posted ∧ posted.state = .posted ∧ posted.kind.isItem = true ∧
     (sale .opened [posted]).lines.length < 200 ∧ 0 ≤ (sale .opened [posted]).itemTotal - posted.amount ∧
     (sale .opened [posted]).itemTotal - posted.amount ≤ 999999999) ∧
    (let s := withSale tendering
     let l := line 2 .cash .posted 200
     Ready s ∧ s.sru.openSlot = some tendering ∧ tendering.line? 2 = some l ∧ l.state = .posted ∧ l.kind = .cash ∧
     tendering.lines.length < 200) ∧
    (let o := sale .tendering [posted, line 2 .item .posted 100, line 3 .cash .posted 200]
     Ready (withSale o) ∧ o.line? 2 = some (line 2 .item .posted 100) ∧ 0 ≤ o.balance - 100) ∧
    (let s := withSale referring
     Ready s ∧ referring.line? 2 = some waiting ∧ waiting.state = .referred ∧ waiting.kind.isItem = true) ∧
    (let l := line 1 .item .voided 498
     (sale .opened [l, line 2 .void .posted (-498), line 3 .card .posted 1]).line? 1 = some l ∧ l.state = .voided) := by decide

theorem witness_referrals :
    (let s := withSale referring
     Ready s ∧ s.sru.openSlot = some referring ∧ referring.state = .opened ∧
     (referring.referrals.find? fun x => x.line == 2) = some ⟨2, .missing, 120000000⟩ ∧ 1 ∉ referring.outstanding ∧
     2 ∈ referring.outstanding ∧ referring.line? 2 = some waiting ∧ waiting.kind ≠ .weighed ∧
     (99999999 : Int).natAbs ≤ 99999999 ∧ 0 ≤ referring.itemTotal + 99999999 ∧
     referring.itemTotal + 99999999 ≤ 999999999) ∧
    (let m : MassRecord := ⟨3852, .none, 3860, 2, 0⟩
     let l := { line 2 .weighed .referred 0 with mass := some m, basis := some .perKg }
     let o : Sale := { sale .tendering [posted, l] with referrals := [⟨2, .refer, 0⟩] }
     Ready (withSale o) ∧ 2 ∈ o.outstanding ∧ o.line? 2 = some l ∧ l.kind = .weighed ∧ l.mass = some m ∧
     l.basis = some .perKg ∧ 999999 ≤ 999999 ∧ price m.certified 999999 .perKg ≤ 99999999 ∧
     0 ≤ o.itemTotal + price m.certified 999999 .perKg ∧ o.itemTotal + price m.certified 999999 .perKg ≤ 999999999) := by
  decide

theorem witness_cash :
    (let s := withSale tendering
     Ready s ∧ s.sru.openSlot = some tendering ∧ tendering.state = .tendering ∧ (0 < 1 ∧ 999999999 < 1000000000) ∧
     tendering.referrals = [] ∧ s.wch.capture = none ∧ tendering.lines.length < 200 ∧
     0 < ({ tendering with lines := tendering.lines ++ [line 3 .cash .posted 297] } : Sale).balance ∧
     ({ tendering with lines := tendering.lines ++ [line 3 .cash .posted 298] } : Sale).balance ≤ 0) ∧
    (Ready (withSale referring) ∧ referring.referrals ≠ []) ∧
    (Ready capturing ∧ capturing.sru.openSlot = some (sale .opened []) ∧ capturing.wch.capture ≠ none) := by decide

theorem witness_card_tender :
    (let o := sale .opened [posted]
     let s := { withSale o with sdc.slot := .held card 60000000 }
     Ready s ∧ s.sru.openSlot = some o ∧ o.state = .opened ∧ 1 ≤ 498 ∧ o.referrals = [] ∧ s.wch.capture = none ∧
     s.sdc.slot = .held card 60000000 ∧ card.serial = 7 ∧ card.trackB.status = .ok ∧ card.account ≠ none ∧
     ((498 : Nat) : Int) ≤ o.balance ∧ o.lines.length < 200 ∧ o.balance < (499 : Nat)) := by decide

theorem witness_no_card : ∀ r due, (withSale (sale .opened [posted])).sdc.slot = .held r due →
    r.serial ≠ 7 ∨ r.trackB.status ≠ .ok ∨ r.account = none := fun r due h => absurd h (by rintro ⟨⟩)

theorem witness_card_answers :
    (let s := { withSale (authorizing 497) with sdc.slot := .bound card }
     Ready s ∧ s.sru.openSlot = some (authorizing 497) ∧ (authorizing 497).state = .authWait ∧
     (authorizing 497).cardTender = some ⟨497, 7, 90000000⟩ ∧ s.sdc.slot = .bound card ∧
     card.account = some (ascii "4000123412341234") ∧ (1 ≤ (ascii "A").length ∧ (ascii "AUTH1234").length ≤ 8) ∧
     0 < ({ authorizing 497 with lines := [posted, line 2 .card .posted 497] } : Sale).balance ∧
     ({ authorizing 498 with lines := [posted, line 2 .card .posted 498] } : Sale).balance ≤ 0) ∧
    (([] : List Byte).length < 1 ∧ 8 < (ascii "AUTH12345").length) ∧ (Ready live ∧ live.sru.openSlot = none) := by decide

/-- A settlement on each state of the store, with a write in flight, and under a supply warning. -/
theorem witness_settlements : ∀ s ∈ [withSale tendering, { withSale tendering with sst.state := .damaged },
      { withSale tendering with sst.state := .fault }, { withSale tendering with pbu.warning := true },
      { withSale tendering with sst.inFlight := some ⟨.totals 1 500, 50000⟩ }],
    Ready s ∧ s.sru.openSlot = some tendering ∧ s.wch.capture = none := by decide

/-- After the authorization timer the open slot still holds the sale, and it is in no AUTH_WAIT. -/
theorem witness_late_answer : ∀ o, (withSale tendering).sru.openSlot = some o → o.state ≠ .authWait ∨ o.cardTender = none :=
  fun o h => by cases h; exact Or.inl (by decide)

theorem witness_suspend :
    (let s := withSale (sale .opened [posted])
     Ready s ∧ s.openSale? = some (sale .opened [posted]) ∧ (sale .opened [posted]).referrals = [] ∧
     (∀ x ∈ (sale .opened [posted]).lines, x.kind ≠ .cash ∧ x.kind ≠ .card) ∧ s.wch.capture = none) ∧
    (let s := { withSale (sale .opened [posted]) with sru.stack := List.replicate 2 (sale .suspended []) }
     s.sru.closing = none ∧ s.sru.stack.length < 3) ∧
    (let s := { withSale (sale .opened [posted]) with sru.closing := some { sale .closing [] with tag := 9 } }
     s.sru.closing ≠ none) ∧
    (let s := { withSale (sale .opened [posted]) with sru.stack := List.replicate 3 (sale .suspended []) }
     s.sru.closing = none ∧ 3 ≤ s.sru.stack.length) := by decide

theorem witness_resume :
    (let s := { live with sru.stack := [sale .suspended [posted]] }
     Ready s ∧ s.sru.openSlot = none ∧ s.sru.stack = sale .suspended [posted] :: []) ∧
    (Ready selling ∧ selling.sru.openSlot ≠ none) ∧ (Ready live ∧ live.sru.stack = []) := by decide

theorem witness_abort :
    (let o := sale .tendering [posted, line 2 .card .posted 100]
     Ready (withSale o) ∧ (withSale o).sru.openSlot = some o ∧ o.state = .tendering ∧ ∃ x ∈ o.lines, x.kind = .card) ∧
    (Ready (withSale tendering) ∧ (∀ x ∈ tendering.lines, x.kind ≠ .card) ∧ 0 < tendering.tenderTotal ∧
     (withSale tendering).tlc.state = .closed ∧ (withSale tendering).tlc.auth = none) ∧
    (let s := { withSale (authorizing 498) with sdc.slot := .bound card, sru.closing := some (sale .closing []) }
     Ready s ∧ (authorizing 498).cardTender ≠ none ∧ (∀ x ∈ (authorizing 498).lines, x.kind ≠ .card)) ∧
    (Ready (withSale referring) ∧ referring.referrals ≠ [] ∧ referring.tenderTotal ≤ 0) ∧
    (Ready capturing ∧ capturing.sru.openSlot = some (sale .opened []) ∧
     capturing.wch.capture = some ⟨4011, .request 5, some apples, 0, 3000000⟩) := by decide

theorem witness_no_sale :
    (Ready State.reset ∧ State.reset.lli.lane ≠ .ready) ∧ (Ready selling ∧ selling.sru.openSlot ≠ none) ∧
    (Ready live ∧ live.lli.lane = .ready ∧ live.sru.openSlot = none ∧ live.tlc.state = .closed ∧ live.tlc.auth = none ∧
     live.pbu.warning = false ∧ live.wch.state ≠ .cal ∧ live.pbu.arbiter = none ∧ live.pbu.pulse = none ∧
     grantSum live.pbu.grants + 40 ≤ 64) ∧
    (let s := { live with pbu.grants := [⟨.phase, 0, 24⟩] }; grantSum s.pbu.grants + 40 ≤ 64) ∧
    (let s := { live with pbu.warning := true }; Ready s ∧ s.pbu.warning = true) ∧
    (let s := { live with pbu.arbiter := some ⟨none, none⟩ }; Ready s ∧ s.pbu.arbiter ≠ none) ∧
    (let s := { live with tlc.state := .jammed }; Ready s ∧ s.tlc.state = .jammed) ∧
    (let s := { live with tlc.state := .overdue false }; Ready s ∧ s.tlc.state = .overdue false) ∧
    (let s := { live with tlc.auth := some .noSale }; Ready s ∧ s.tlc.state = .closed ∧ s.tlc.auth ≠ none) := by decide

theorem witness_no_sale_merges :
    (let s := { live with tlc.state := .pulsing 50000, tlc.auth := some .noSale, pbu.pulse := some 0 }
     Ready s ∧ s.lli.lane = .ready ∧ s.sru.openSlot = none ∧ s.tlc.state = .pulsing 50000) ∧
    (let s := { live with tlc.state := .confirming 500000, tlc.auth := some .noSale }
     Ready s ∧ s.tlc.state = .confirming 500000) ∧
    (let s := { live with tlc.state := .waitGrant, tlc.auth := some .noSale, pbu.solenoidReq := some 0 }
     Ready s ∧ s.tlc.state = .waitGrant) := by decide

/-! ## Witnesses: card stripe reading -/

/-- The format of track B. -/
def format : FormatEntry := ⟨.b, 4, 11, 15, 13, 40⟩

/-- A swipe of track B alone, its decoder in BITS with this buffer. -/
def swiping (buffer : List Bool) : State :=
  { live with
    sdc.swipe := some ⟨none, some format, 1, 90000⟩
    sdc.trackB := ⟨.bits, some 400, 8, 3200, some 70000, none, buffer, none⟩
    sdc.counter := 65535 }

set_option maxRecDepth 100000 in
theorem witness_swipes :
    (live.sdc.trackA.state = .idle ∧ live.sdc.trackB.state = .idle) ∧
    (let s := swiping []
     ¬(s.sdc.trackA.state = .idle ∧ s.sdc.trackB.state = .idle) ∧ (s.sdc.decoder .b).lastTime = some 70000) ∧
    (let d : Decoder := ⟨.bits, some 400, 8, 3200, none, none, List.replicate 1023 false, none⟩
     d.state = .bits ∧ d.cell = some 400 ∧ d.buffer.length < 1024 ∧ 3 * 400 ≤ 4 * 300 ∧ 4 * 299 < 3 * 400 ∧ d.half = none) ∧
    (let d : Decoder := ⟨.bits, some 400, 8, 3200, none, some 200, [], none⟩
     d.state = .bits ∧ d.cell = some 400 ∧ d.half = some 200 ∧ d.half ≠ none) ∧
    ((swiping []).sdc.swipe = some ⟨none, some format, 1, 90000⟩ ∧
     (let a := (swiping []).sdc.trackA.outcome none
      let b := (swiping []).sdc.trackB.outcome (some format)
      a.status = .noData ∧ b.status = .noData)) ∧
    (let s := swiping (List.replicate 30 false)
     let b := s.sdc.trackB.outcome (some format)
     b.status = .noStart ∧ s.sdc.counter = 65535) ∧
    (let s := { swiping (List.replicate 30 false) with sdc.slot := .bound card }; s.sdc.slot = .bound card) := by decide

set_option maxRecDepth 100000 in
/-- A swipe whose track A has had no transition, and the lead-in and the bit stage at their ends. -/
theorem witness_decoders :
    (let s := swiping []
     let t := { s with sdc.trackA := ⟨.leadin, none, 0, 0, none, none, [], none⟩ }
     ¬(t.sdc.trackA.state = .idle ∧ t.sdc.trackB.state = .idle) ∧ Track.b ≠ .a ∧ Track.a ≠ .b ∧
     t.sdc.swipe = some ⟨none, some format, 1, 90000⟩ ∧ (t.sdc.decoder .a).lastTime = none ∧
     (t.sdc.decoder .b).lastTime = some 70000) ∧
    (let d : Nat → Nat → Decoder := fun n sum => ⟨.leadin, none, n, sum, some 0, none, [], none⟩
     (d 6 0).state = .leadin ∧ (d 6 0).intervals < 7 ∧ (d 7 0).state = .leadin ∧ (d 7 0).intervals = 7 ∧
     (140 + 19) / 8 < 20 ∧ (140 + 20) / 8 = 20 ∧ (14000 + 2007) / 8 = 2000 ∧ (14000 + 2008) / 8 = 2001) ∧
    (let d : Option Nat → Decoder := fun h => ⟨.bits, some 400, 8, 3200, none, h, List.replicate 1024 false, none⟩
     (d none).state = .bits ∧ (d none).cell = some 400 ∧ 1024 ≤ (d none).buffer.length ∧
     (3 * 400 ≤ 4 * 300 ∧ (d none).half = none) ∧ (4 * 299 < 3 * 400 ∧ (d (some 200)).half ≠ none)) ∧
    ({ Decoder.idle with state := .done } : Decoder).state = .done := by decide

theorem witness_swipe_slot : ∀ r, (swiping (List.replicate 30 false)).sdc.slot ≠ .bound r := fun r => by rintro ⟨⟩

theorem witness_stripe_tracks :
    4 ≤ format.width ∧ format.width ≤ 6 ∧ format.start < 2 ^ format.width ∧ format.stop < 2 ^ format.width ∧
    format.start ≠ format.stop ∧ (∀ v ∈ [0, 14], v < 2 ^ format.width ∧ v ≠ format.stop) ∧
    ([0, 14] : List Nat).length + 2 ≤ format.maxChars ∧ (List.replicate 38 14).length + 2 ≤ format.maxChars ∧
    findStart 4 11 (trackBits 4 [11, 0, 0, 15]).reverse = none := by decide

theorem witness_held_cards :
    (let s := { live with sdc.slot := .held card 60000000 }
     Ready s ∧ s.sdc.slot = .held card 60000000 ∧ card.serial = 7 ∧ card.serial ≠ 65535) ∧
    (let s := { live with sdc.slot := .bound card }; Ready s ∧ s.sdc.slot = .bound card) ∧
    (Ready live ∧ live.sdc.slot = .empty) ∧ ¬(card.trackA.status = .noData ∧ card.trackB.status = .noData) := by decide

theorem witness_cards_and_parameters : AtRouter (.setParam 1 (ascii "CARD_EXPIRY") 10) live live ∧
    ∃ t, exec (.setParam 1 (ascii "CARD_EXPIRY") 10) live = .next t := ⟨at_router (by decide), _, rfl⟩

theorem witness_masked : 0 ≤ 6 ∧ 6 ≤ 6 ∧ 12 ≤ (List.replicate 12 (48 : Byte)).length ∧ (List.replicate 19 (48 : Byte)).length ≤ 19 ∧
    6 < (List.replicate 12 (48 : Byte)).length - 4 ∧
    (let s := { live with sdc.slot := .bound card }
     s.sdc.slot = .bound card ∧ card.account = some (ascii "4000123412341234")) := by decide

/-! ## Witnesses: the till -/

theorem witness_drawer_switch :
    (live.tlc.switchOpen = false ∧ live.tlc.state = .closed) ∧
    (let s := { live with tlc.state := .waitGrant, tlc.auth := some .noSale, pbu.solenoidReq := some 0 }
     s.tlc.switchOpen = false ∧ s.tlc.state = .waitGrant) ∧
    (let s := { live with
       tlc.state := .pulsing 50000, tlc.auth := some .noSale, pbu.pulse := some 0, wch.window := .opened none }
     s.tlc.switchOpen = false ∧ s.tlc.state = .pulsing 50000 ∧ s.pbu.solenoidReq = none ∧ s.wch.window = .opened none) ∧
    (let s := { live with tlc.state := .overdue true, tlc.switchOpen := true }
     s.tlc.switchOpen = true ∧ s.tlc.state = .overdue true) ∧
    (let s := { live with tlc.state := .opened true 9, tlc.switchOpen := true }
     s.tlc.switchOpen = true ∧ s.tlc.state = .opened true 9) := by decide

theorem witness_drawer_shut : (∀ u d, live.tlc.state ≠ .opened u d) ∧ (∀ u, live.tlc.state ≠ .overdue u) :=
  ⟨fun u d => by rintro ⟨⟩, fun u => by rintro ⟨⟩⟩

theorem witness_drawer_timers :
    (let s := { live with tlc.state := .pulsing 50000, pbu.pulse := some 0, wch.window := .opened none }
     s.tlc.state = .pulsing 50000 ∧ s.pbu.solenoidReq = none ∧ s.wch.window = .opened none) ∧
    (let s := { live with tlc.state := .confirming 500000, tlc.retries := 3 }
     s.tlc.state = .confirming 500000 ∧ 3 ≤ s.tlc.retries) ∧
    (let s := { live with tlc.state := .confirming 500000, tlc.retries := 2, pbu.warning := true }
     s.tlc.state = .confirming 500000 ∧ s.tlc.retries < 3 ∧ s.pbu.warning = true) ∧
    (let s := { live with tlc.state := .confirming 500000, tlc.retries := 2, pbu.grants := [⟨.phase, 490000, 24⟩] }
     s.tlc.state = .confirming 500000 ∧ s.tlc.retries < 3 ∧ s.pbu.warning = false ∧ s.wch.state ≠ .cal ∧
     s.pbu.arbiter = none ∧ s.pbu.pulse = none ∧ grantSum s.pbu.grants + 40 ≤ 64) ∧
    (let s := { live with tlc.state := .opened true 30000000 }; s.tlc.state = .opened true 30000000) := by decide

theorem witness_till_clear :
    (let s := { live with tlc.state := .jammed }; Ready s ∧ s.tlc.state = .jammed) ∧
    (let s := { live with tlc.auth := some .noSale }; Ready s ∧ s.tlc.state = .closed ∧ s.tlc.auth ≠ none) ∧
    (Ready live ∧ live.tlc.state ≠ .jammed ∧ ¬(live.tlc.state = .closed ∧ live.tlc.auth ≠ none)) := by decide

/-! ## Witnesses: receipt printing and the pulse budget -/

/-- A line of the printer's own, of a sale, cut after or not, with rows printed. -/
def printLine (sale : Option Nat) (cut : Bool) (rows : Nat) : PrintLine :=
  ⟨if sale.isSome then .trailer else .text, sale, none, List.replicate 32 32, false, cut, rows⟩

/-- A font whose space is blank and whose "A" is full. -/
def font : TableBank GlyphEntry := ⟨[⟨32, List.replicate 24 0⟩, ⟨65, List.replicate 24 0xFFF⟩], [], .empty, 1, none⟩

theorem witness_phases :
    64 ≤ 64 ∧ 384 ≤ 384 ∧ [64, 0, 64, 1, 0, 64].length = 6 ∧ (∀ b ∈ [64, 0, 64, 1, 0, 64], b ≤ 64) ∧
    (splitPhases 64 [64, 0, 64, 1, 0, 64])[0]? = some ⟨[0], 64⟩ ∧ (splitPhases 64 [64, 0, 64, 1, 0, 64])[1]? = some ⟨[2], 64⟩ ∧
    [0, 0, 0, 0, 0, 0].sum = 0 := by decide

set_option maxRecDepth 100000 in
theorem witness_rows :
    (let s := { live with tbs.font := font }
     let l := printLine none false 0
     splitPhases s.lli.params.printDensity (blockCounts (rowDots s.tbs.font.active l.glyphRow l.text)) = []) ∧
    (let s := { live with tbs.font := font }
     let l : PrintLine := { printLine none false 23 with text := List.replicate 32 65 }
     splitPhases s.lli.params.printDensity (blockCounts (rowDots s.tbs.font.active l.glyphRow l.text)) =
       ⟨[0, 1], 128⟩ :: [⟨[2, 3], 128⟩, ⟨[4, 5], 128⟩]) := by decide

theorem witness_steps :
    (let p : Phase := ⟨[0], 64⟩
     let s := { live with pen.state := .printing [] (.strobing p 400) }
     s.pen.state = .printing [] (.strobing p 400)) ∧
    (let p : Phase := ⟨[0, 1], 128⟩
     let s := { live with
       pen.state := .printing [p] (.strobing p 400), pbu.arbiter := some ⟨none, none⟩, pbu.strobe := true
       pbu.grants := List.replicate 7 ⟨.phase, 0, 8⟩ }
     s.pbu.arbiter ≠ none ∧ s.pbu.pulse = none ∧ grantSum s.pbu.grants + p.cost ≤ 64) ∧
    (let p : Phase := ⟨[0, 1], 128⟩
     let s := { live with
       pen.state := .printing [p] (.strobing p 400), pbu.arbiter := some ⟨none, none⟩, pbu.strobe := true
       pbu.grants := List.replicate 8 ⟨.phase, 0, 8⟩ }
     s.pbu.arbiter ≠ none ∧ s.pbu.pulse = none ∧ 64 < grantSum s.pbu.grants + p.cost) ∧
    (let s := { live with pen.state := .printing [] (.stepping 1000), pen.queue := [.line (printLine none false 22)] }
     s.pen.state = .printing [] (.stepping 1000) ∧ s.pen.queue = .line (printLine none false 22) :: [] ∧
     s.pen.paperMark = false ∧ s.pen.coverMark = false ∧ s.pbu.warning = false ∧
     (printLine none false 22).rowsDone + 1 < (printLine none false 22).rows) ∧
    ((printLine none true 23).rows ≤ (printLine none true 23).rowsDone + 1 ∧ (printLine none true 23).cutAfter = true ∧
     (printLine none false 23).rows ≤ (printLine none false 23).rowsDone + 1 ∧ 24 < live.lli.params.linePitch) ∧
    (let s := { live with pen.state := .feeding 1000, pen.feed := 2 }
     s.pen.state = .feeding 1000 ∧ s.pen.paperMark = false ∧ s.pen.coverMark = false ∧ s.pbu.warning = false ∧
     1 < s.pen.feed) ∧
    (let s := { live with pen.state := .feeding 1000, pen.feed := 1, pen.owed := some none }
     s.pen.state = .feeding 1000 ∧ s.pen.feed ≤ 1 ∧ s.pen.owed ≠ none) := by decide

/-- A part with these marks, paper and cover, and this supply warning. -/
def marked (m : Bool × Bool × Bool) (s : State) : State :=
  { s with pen.paperMark := m.1, pen.coverMark := m.2.1, pbu.warning := m.2.2 }

/-- Each of the two marks, and the supply warning. -/
abbrev causes : List (Bool × Bool × Bool) := [(true, false, false), (false, true, true), (false, false, true)]

/-- At the end of a row, of a line or of a step the printer halts. -/
theorem witness_halts :
    (∀ m ∈ causes, ∀ n ∈ [22, 23],
      let l := printLine none true n
      let s := marked m { live with pen.state := .printing [] (.stepping 1000), pen.queue := [.line l] }
      s.pen.state = .printing [] (.stepping 1000) ∧ s.pen.queue = .line l :: [] ∧
      (s.pen.paperMark = true ∨ s.pen.coverMark = true ∨ s.pbu.warning = true)) ∧
    (printLine none true 22).rowsDone + 1 < (printLine none true 22).rows ∧
    (printLine none true 23).rows ≤ (printLine none true 23).rowsDone + 1 ∧ (printLine none true 23).cutAfter = true ∧
    (printLine none false 23).cutAfter = false ∧
    (∀ m ∈ causes,
      let s := marked m { live with pen.state := .feeding 1000, pen.feed := 1 }
      s.pen.state = .feeding 1000 ∧ (s.pen.paperMark = true ∨ s.pen.coverMark = true ∨ s.pbu.warning = true)) := by decide

/-- A closing sale of this kind whose owed cut is being made. -/
def cutting (k : ClosingKind) : State :=
  let o := { sale .closing [posted] with closingKind := some k }
  { live with sru.closing := some o, pen.owed := some (some 1), pen.state := .cutting 800000 true, pen.home := false }

theorem witness_cutter :
    ((cutting .settled).pen.state = .cutting 800000 true ∧ (cutting .settled).pen.owed = some (some 1) ∧
     (cutting .settled).sru.closing = some { sale .closing [posted] with closingKind := some .settled } ∧
     (cutting .settled).pen.home = false) ∧
    ((cutting .suspended).sru.closing = some { sale .closing [posted] with closingKind := some .suspended }) ∧
    (let s := { live with pen.state := .cutting 800000 false }
     s.pen.state = .cutting 800000 false ∧ s.pen.home = true) := by decide

/-- A SETTLED sale waits in the open slot and enters the closing slot. -/
theorem witness_waiting_sale :
    let o := { sale .settled [posted] with tag := 2 }
    let s := { cutting .settled with sru.openSlot := some o }
    s.pen.state = .cutting 800000 true ∧ s.pen.owed = some (some 1) ∧ s.sru.closing.isSome = true ∧
    ({ s.sru with closing := none } : Sru).entered =
      { s.sru with openSlot := none, closing := some { o with state := .closing, closingKind := some .settled } } := by decide

/-- A cut of the printer's own, and one under each mark and the supply warning. -/
theorem witness_cut_halts :
    (let s := { cutting .settled with pen.owed := some none }
     s.pen.state = .cutting 800000 true ∧ s.pen.home = false ∧
     ∀ o ∈ s.sru.closing, s.pen.owed ≠ some (some o.tag)) ∧
    (∀ m ∈ causes,
      let s := marked m (cutting .settled)
      s.pen.state = .cutting 800000 true ∧
      (s.pen.paperMark = true ∨ s.pen.coverMark = true ∨ s.pbu.warning = true)) := by decide

theorem witness_sensors :
    (live.pen.coverOpen = false ∧ live.pen.paperOut = false ∧ live.pen.state = .idle) ∧
    (let s := { live with pen.state := .halted .supply, pen.queue := [.line (printLine none false 5)] }
     s.pen.state = .halted .supply ∧ s.pen.queue = .line (printLine none false 5) :: []) ∧
    (let s := { live with pen.state := .feeding 9 }
     s.pen.state ≠ .idle ∧ s.pen.state ≠ .hotWait ∧ s.pen.state ≠ .halted .supply) ∧
    (let s := { live with pen.paperOut := true, pen.coverOpen := true }
     s.pen.paperOut = true ∧ s.pen.coverOpen = true) ∧
    live.pen.headHot = false ∧
    (let s := { live with pen.headHot := true, pen.state := .hotWait, pen.queue := [.line (printLine none false 5)] }
     s.pen.headHot = true ∧ s.pen.state = .hotWait ∧ s.pen.queue = .line (printLine none false 5) :: [] ∧
     s.pen.paperMark = false ∧ s.pen.coverMark = false ∧ s.pbu.warning = false ∧ s.pen.feed = 0 ∧ s.pen.owed = none) ∧
    live.pen.nearEnd ≠ true ∧
    (let s := { live with pen.nearEnd := true }
     s.pen.nearEnd = true ∧ s.pen.paperOut = false ∧ s.pen.coverMark = false ∧ s.pen.state = .idle) := by decide

theorem witness_resume_printing :
    (let s := { live with pen.state := .halted .paperOut, pbu.warning := true }
     Ready s ∧ s.pen.state = .halted .paperOut ∧ HaltReason.paperOut ≠ .supply ∧ s.pen.paperOut = false ∧
     s.pen.coverOpen = false ∧ s.pbu.warning = true) ∧
    (let s := { live with pen.state := .halted .cutter, pen.home := false }
     Ready s ∧ s.pen.state = .halted .cutter ∧ s.pbu.warning = false) ∧
    (let s := { live with pen.state := .halted .coverOpen, pen.feed := 1 }
     Ready s ∧ s.pen.state = .halted .coverOpen ∧ HaltReason.coverOpen ≠ .cutter ∧ 0 < s.pen.feed) ∧
    (let s := { live with pen.state := .halted .paperOut, pen.paperOut := true }; Ready s ∧ s.pen.paperOut = true) ∧
    (let s := { live with pen.state := .halted .supply, pbu.warning := true }; Ready s ∧ s.pen.state = .halted .supply) := by
  decide

theorem witness_resume_goes_on :
    let halted : Pen → State := fun p => { live with pen := { p with state := .halted .coverOpen } }
    let l := printLine none false 5
    (∀ p ∈ [{ live.pen with queue := [] }, { live.pen with queue := [.line l], headHot := true },
        { live.pen with queue := [.line l] }, { live.pen with queue := [.feed 1, .cut] },
        { live.pen with queue := [.feed 255] }, { live.pen with queue := [.cut], sinceGlyph := 95 },
        { live.pen with queue := [.cut], sinceGlyph := 96 }],
      Ready (halted p) ∧ (halted p).pen.paperOut = false ∧ (halted p).pen.coverOpen = false ∧
      (halted p).pbu.warning = false ∧ (halted p).pen.feed = 0 ∧ (halted p).pen.owed = none) ∧
    (let s := halted { live.pen with owed := some none }
     Ready s ∧ s.pen.feed = 0 ∧ s.pen.owed ≠ none) ∧ (0 < 1 ∧ 0 < 255) := by decide

theorem witness_not_halted : Ready live ∧ ∀ r, live.pen.state ≠ .halted r := ⟨by decide, fun r => by rintro ⟨⟩⟩

theorem witness_discard :
    (let s := { live with pen.state := .halted .cutter, pen.feed := 40, pen.owed := some none }
     Ready s ∧ s.pen.state = .halted .cutter ∧ s.sru.openSlot = none ∧ s.sru.closing = none ∧ s.printTablesWait = false ∧
     s.causeCleared .cutter = true ∧ s.pbu.warning = false) ∧
    (let s := { live with pen.state := .halted .cutter, pen.home := false }
     Ready s ∧ s.causeCleared .cutter = false) ∧
    (let s := { cutting .settled with pen.state := .halted .cutter }
     Ready s ∧ s.sru.closing = some { sale .closing [posted] with closingKind := some .settled } ∧
     (some ClosingKind.settled : Option ClosingKind) ≠ some .suspended) := by decide

theorem witness_discard_sales :
    (let o := { sale .closing [{ posted with print := .queued }] with closingKind := some .suspended }
     let s := { cutting .suspended with sru.closing := some o, pen.state := .halted .paperOut }
     Ready s ∧ s.pen.state = .halted .paperOut ∧ s.sru.closing = some o ∧ o.closingKind = some .suspended ∧
     s.sru.openSlot = none) ∧
    (let o := sale .opened [{ posted with print := .queued }]
     let s := { withSale o with pen.state := .halted .cutter, pen.home := false }
     Ready s ∧ s.sru.closing = none ∧ s.sru.openSlot = some o ∧ s.printTablesWait = false ∧
     s.causeCleared .cutter = false) := by decide

/-- The closing sale of a part whose cover is still open, with a sale that waits for the slot. -/
theorem witness_discard_in_halt :
    let s := { cutting .settled with
      pen.state := .halted .coverOpen, pen.coverOpen := true, pen.feed := 40
      sru.openSlot := some { sale .aborted [] with tag := 2 } }
    Ready s ∧ s.pen.state = .halted .coverOpen ∧ s.causeCleared .coverOpen = false ∧ s.printTablesWait = false ∧
    s.sru.closing = some { sale .closing [posted] with closingKind := some .settled } := by decide

theorem witness_print_requests :
    (List.replicate 32 (65 : Byte)).length ≤ 32 ∧ 32 < (List.replicate 33 (65 : Byte)).length ∧ (1 ≤ 1 ∧ 255 ≤ 255) ∧
    (0 < 1 ∧ 255 < 256) ∧
    (let s := { live with pen.queue := List.replicate 47 .cut, pen.state := .halted .cutter }
     Ready s ∧ s.sru.openSlot = none ∧ s.sru.closing = none ∧ s.pen.queue.length < 48 ∧ s.pen.state ≠ .idle) ∧
    (Ready live ∧ live.pen.queue.length < 48 ∧ live.pen.state = .idle) ∧ (Ready selling ∧ selling.sru.openSlot ≠ none) ∧
    (let s := { live with pen.queue := List.replicate 48 .cut }; Ready s ∧ 48 ≤ s.pen.queue.length) := by decide

theorem witness_grants :
    (let s := { live with pbu.grants := [⟨.phase, 0, 24⟩] }
     s.pbu.grants = ⟨.phase, 0, 24⟩ :: [] ∧ s.pbu.solenoidReq = none ∧ s.pbu.phaseReq = none) ∧
    (let s := { live with
       pbu.grants := [⟨.phase, 0, 24⟩, ⟨.phase, 900, 24⟩], pbu.solenoidReq := some 5, tlc.state := .waitGrant }
     s.pbu.grants = ⟨.phase, 0, 24⟩ :: [⟨.phase, 900, 24⟩] ∧ s.pbu.solenoidReq = some 5 ∧ s.pbu.arbiter = none ∧
     s.pbu.pulse = none ∧ grantSum [⟨.phase, 900, 24⟩] + 40 ≤ 64) ∧
    (let s := { live with
       pbu.grants := [⟨.phase, 0, 1⟩, ⟨.phase, 900, 25⟩], pbu.solenoidReq := some 5, pbu.phaseReq := some ⟨true, 1, 6⟩ }
     s.pbu.grants = ⟨.phase, 0, 1⟩ :: [⟨.phase, 900, 25⟩] ∧ s.pbu.solenoidReq = some 5 ∧
     64 < grantSum [⟨.phase, 900, 25⟩] + 40 ∧ s.pbu.arbiter = none ∧ (∀ y ∈ s.pbu.phaseReq, y.first = true)) := by decide

theorem witness_supply :
    (live.pbu.warning = false ∧ live.pen.state = .idle) ∧
    (let s := { live with tlc.state := .waitGrant, pbu.solenoidReq := some 5 }
     s.pbu.warning = false ∧ s.tlc.state = .waitGrant) ∧
    (let s := { live with pbu.warning := true, pen.state := .halted .supply, sst.pendingTotals := true }
     s.pbu.warning = true ∧ s.sst.pendingTotals = true ∧ s.sst.inFlight = none ∧ s.pen.state = .halted .supply ∧
     s.pen.paperMark = false ∧ s.pen.coverMark = false ∧ s.pen.queue.length ≤ 48) := by decide

/-! ## Witnesses: the accessory port -/

set_option maxRecDepth 100000 in
theorem witness_rounds :
    (let s := { live with acp.visit := none, acp.queue := [⟨1, 3, [65], false⟩] }
     s.acp.visit = none ∧ [1, 2, 3, 4].find? (fun m => !s.skips m) = some 1) ∧
    (let s := { live with acp.visit := none, acp.units.u1.role := .none, acp.units.u2.role := .none }
     s.acp.visit = none ∧ [1, 2, 3, 4].find? (fun m => !s.skips m) = none) ∧
    (let s := { live with acp.visit := some ⟨4, 0, [], false⟩, acp.units.u4 := ⟨.other, .unknown, 0⟩ }
     s.acp.visit = some ⟨4, 0, [], false⟩ ∧ (s.acp.units.get 4).role ≠ .scanner ∧
     (s.acp.units.get 4).presence ≠ .present ∧ (s.acp.units.get 4).presence = .unknown) ∧
    (let s := { live with acp.visit := some ⟨1, 0, [], false⟩, acp.units.u1 := ⟨.scanner, .present, 1⟩ }
     s.acp.visit = some ⟨1, 0, [], false⟩ ∧ (s.acp.units.get 1).presence = .present ∧ (s.acp.units.get 1).misses < 2) ∧
    (let s := { live with acp.visit := some ⟨1, 0, [], false⟩, acp.units.u1 := ⟨.scanner, .present, 2⟩ }
     s.acp.visit = some ⟨1, 0, [], false⟩ ∧ (s.acp.units.get 1).presence = .present ∧ 2 ≤ (s.acp.units.get 1).misses) ∧
    (let s := { live with acp.visit := some ⟨1, 0, [], false⟩, acp.units.u1 := ⟨.scanner, .absent, 0⟩ }
     s.acp.visit = some ⟨1, 0, [], false⟩ ∧ (s.acp.units.get 1).presence = .absent) ∧
    (List.replicate 250 (65 : Byte)).length ≤ 250 := by decide

theorem witness_rounds_skip :
    -- unit 1 is passed over for its held read, and all for want of room
    (let s := { live with acp.visit := none, acp.held := some ⟨⟨1, 0, ascii "A2"⟩, 1⟩, acp.later := [2] }
     s.acp.visit = none ∧ (s.acp.units.get 1).role = .scanner ∧ s.acp.held ≠ none ∧ (s.acp.units.get 2).role ≠ .none ∧
     ¬24 ≤ s.lli.accUps.length ∧ ∀ f ∈ s.acp.queue, f.unit ≠ 2) ∧
    (let s := { live with acp.visit := none, lli.accUps := List.replicate 24 ⟨1, 0, [1]⟩ }
     s.acp.visit = none ∧ 24 ≤ s.lli.accUps.length) ∧
    (let s := { live with acp.visit := some ⟨1, 0, [], false⟩, acp.later := [2] }
     s.acp.visit = some ⟨1, 0, [], false⟩ ∧ 2 ∈ s.acp.later) := by decide

theorem witness_mirror :
    (let s := { live with acp.mirrorDue := some 200000, acp.queue := List.replicate 15 ⟨2, 0, [], false⟩ }
     s.acp.mirrorDue = some 200000 ∧ s.showing = true ∧ s.acp.units.holder .display = some 2 ∧
     (∀ f ∈ s.acp.queue, f.mirror = false) ∧ s.acp.queue.length < 16) ∧
    (let s := { live with
       acp.mirrorDue := some 200000, acp.queue := [⟨2, 0, [], true⟩], acp.lastSent := true, wch.state := .zeroPending }
     s.acp.mirrorDue = some 200000 ∧ s.showing = false ∧ s.acp.lastSent = true ∧
     s.acp.units.holder .display = some 2 ∧ ∃ f ∈ s.acp.queue, f.mirror = true) ∧
    (let s := { live with acp.mirrorDue := some 200000, wch.state := .zeroPending }
     s.acp.mirrorDue = some 200000 ∧ s.showing = false ∧ s.acp.lastSent = false) := by decide

/-- A code table: WEIGH under 20, EMBEDDED under 21, every other 2 blocked. -/
def codes : List CodeEntry :=
  [⟨ascii "2", 0, false, .block, none, none⟩, ⟨ascii "20", 13, true, .weigh, some (3, 5), none⟩,
   ⟨ascii "21", 13, true, .embedded, some (3, 5), some (8, 5)⟩]

/-- A frame of the scanner with this code. -/
def read (code : String) : AccFrame := ⟨1, 0, ascii ("A" ++ code)⟩

theorem witness_reads :
    (let s := { selling with tbs.code.active := codes }
     (s.acp.units.get (read "5").unit).role = .scanner ∧ s.lli.lane = .ready ∧
     readDigits (read "5").payload = some (ascii "5") ∧ codeAction s.tbs.code.active (ascii "5") = .forward ∧
     readDigits (read "2").payload = some (ascii "2") ∧ codeAction s.tbs.code.active (ascii "2") = .block .table ∧
     readDigits (read "2004011000002").payload = some (ascii "2004011000002") ∧
     codeAction s.tbs.code.active (ascii "2004011000002") = .weigh 4011 ∧
     codeAction s.tbs.code.active (ascii "2004011000003") = .block .check ∧ s.openSale? = some (sale .opened []) ∧
     s.wch.capture = none ∧ s.wch.state = .running ∧ (∀ e ∈ s.tbs.findItem 4011, e.basis ≠ .each) ∧
     codeAction s.tbs.code.active (ascii "2103001004867") = .embedded 3001 486 ∧ s.tbs.findItem 3001 = some roll ∧
     486 ≤ 99999999 ∧ (sale .opened []).lines.length < 200 ∧ 0 ≤ (sale .opened []).itemTotal + 486 ∧
     (sale .opened []).itemTotal + 486 ≤ 999999999) ∧
    (let s := { capturing with tbs.code.active := codes }
     s.lli.lane = .ready ∧ s.openSale? = some (sale .opened []) ∧ s.wch.capture ≠ none) ∧
    (let s := { live with tbs.code.active := codes }; s.lli.lane = .ready ∧ s.openSale? = none) := by decide

theorem chosen_of {table : List CodeEntry} {ds : List Byte} {e : CodeEntry}
    (h : e ∈ table ∧ e.lead <+: ds ∧ (e.total = 0 ∨ e.total = ds.length))
    (h2 : ∀ f ∈ table, f.lead <+: ds → (f.total = 0 ∨ f.total = ds.length) → f ≠ e →
      f.lead.length < e.lead.length ∨ (f.lead.length = e.lead.length ∧ e.total ≠ 0 ∧ f.total = 0)) :
    Chosen table ds e := ⟨h, fun f hf hn => h2 f hf.1 hf.2.1 hf.2.2 hn⟩

theorem witness_chosen :
    -- the longest prefix, and a fixed length before any
    Chosen codes (ascii "2004011000002") ⟨ascii "20", 13, true, .weigh, some (3, 5), none⟩ ∧
    Chosen (⟨ascii "21", 0, false, .block, none, none⟩ :: codes) (ascii "2103001004867")
      ⟨ascii "21", 13, true, .embedded, some (3, 5), some (8, 5)⟩ ∧
    Chosen codes (ascii "2") ⟨ascii "2", 0, false, .block, none, none⟩ ∧
    (∀ e ∈ codes, ¬(e.lead <+: ascii "4011" ∧ (e.total = 0 ∨ e.total = (ascii "4011").length))) ∧
    (∀ d ∈ ascii "2004011000002", 48 ≤ d.toNat ∧ d.toNat ≤ 57) :=
  ⟨chosen_of (by decide) (by decide), chosen_of (by decide) (by decide), chosen_of (by decide) (by decide), by decide,
    by decide⟩

theorem witness_check_digit : CheckDigitHolds (ascii "2004011000002") ∧ CheckDigitHolds (ascii "2103001004867") ∧
    ¬CheckDigitHolds (ascii "2004011000003") ∧ decimalField (ascii "2103001004867") 3 5 = 3001 ∧
    decimalField (ascii "2103001004867") 8 5 = 486 ∧ decimalField (ascii "2000000000008") 3 5 = 0 ∧
    (ascii "12345").length < 3 + 5 - 1 := by
  refine ⟨⟨ascii "200401100000", 50, by decide⟩, ⟨ascii "210300100486", 55, by decide⟩, ?_, by decide⟩
  rintro ⟨body, c, h, hc⟩
  obtain ⟨rfl, hl⟩ := List.append_inj' (show body ++ [c] = ascii "200401100000" ++ [51] from h.symm) rfl
  cases hl
  revert hc
  decide

set_option maxRecDepth 100000 in
/-- Each action at the ACCESSORY_ANSWER that carries the read. -/
theorem witness_arriving_reads :
    let arriving : State → State := fun s => { s with tbs.code.active := codes, acp.visit := some ⟨1, 0, [], false⟩ }
    (let s := arriving selling
     s.acp.visit = some ⟨1, 0, [], false⟩ ∧ (s.acp.units.get 1).role = .scanner ∧ s.lli.lane = .ready ∧
     codeAction s.tbs.code.active (ascii "4011") = .forward ∧
     codeAction s.tbs.code.active (ascii "2") = .block .table ∧
     codeAction s.tbs.code.active (ascii "2004011000002") = .weigh 4011 ∧ s.openSale? = some (sale .opened []) ∧
     s.wch.capture = none ∧ s.wch.state = .running ∧ (∀ e ∈ s.tbs.findItem 4011, e.basis ≠ .each) ∧
     codeAction s.tbs.code.active (ascii "2103001004867") = .embedded 3001 486 ∧ s.tbs.findItem 3001 = some roll ∧
     (∀ d ∈ ascii "2103001004867", 48 ≤ d.toNat ∧ d.toNat ≤ 57)) ∧
    (let s := arriving live; s.openSale? = none ∧ codeAction s.tbs.code.active (ascii "2004011000002") = .weigh 4011) ∧
    (let s := arriving capturing; s.openSale? = some (sale .opened []) ∧ s.wch.capture ≠ none) := by decide

set_option maxRecDepth 100000 in
/-- Reads that go up: refused captures, embedded lines at a LIMIT, and answers that are no read. -/
theorem witness_reads_that_go_up :
    let arriving : State → State := fun s => { s with tbs.code.active := codes, acp.visit := some ⟨1, 0, [], false⟩ }
    (let s := { arriving selling with wch.state := .zeroPending }
     s.openSale? = some (sale .opened []) ∧ s.wch.capture = none ∧ s.wch.state ≠ .running) ∧
    (let s := arriving selling
     codeAction s.tbs.code.active (ascii "2003001000008") = .weigh 3001 ∧ s.tbs.findItem 3001 = some roll ∧
     roll.basis = .each) ∧
    (let table : List CodeEntry := [⟨ascii "2", 0, false, .embedded, some (2, 4), some (6, 9)⟩]
     codeAction table (ascii "23001100000000") = .embedded 3001 100000000 ∧ 99999999 < 100000000) ∧
    (let o := sale .opened [line 1 .text .posted 999999514]
     let s := arriving (withSale o)
     s.openSale? = some o ∧ s.tbs.findItem 3001 ≠ none ∧ 999999999 < o.itemTotal + (486 : Nat)) ∧
    (let o := { sale .opened [] with referrals := List.replicate 4 ⟨1, .refer, 0⟩ }
     let s := { arriving (withSale o) with tbs.item.active := [] }
     s.openSale? = some o ∧ s.tbs.findItem 3001 = none ∧ 4 ≤ o.referrals.length ∧ o.lines.length < 200) ∧
    (let s := { arriving selling with tbs.item.active := [] }
     s.openSale? = some (sale .opened []) ∧ s.tbs.findItem 3001 = none ∧ (sale .opened []).referrals.length < 4) ∧
    (let s := arriving State.reset
     s.acp.visit = some ⟨1, 0, [], false⟩ ∧ (s.acp.units.get 1).role ≠ .none ∧ s.lli.lane = .unconfigured) ∧
    (let s := { arriving live with acp.visit := some ⟨2, 0, [], false⟩ }
     s.acp.visit = some ⟨2, 0, [], false⟩ ∧ (s.acp.units.get 2).role ≠ .scanner ∧ (s.acp.units.get 2).role ≠ .none) ∧
    -- no digit, twenty-one of them, and a byte that is none
    (∀ payload ∈ [ascii "A", ascii "A123456789012345678901", ascii "A12B"], payload ≠ [] ∧ payload.length ≤ 250 ∧
      ¬(2 ≤ payload.length ∧ payload.length ≤ 21 ∧ ∀ d ∈ payload.tail, 48 ≤ d.toNat ∧ d.toNat ≤ 57)) := by decide

/-! ## Witnesses: loaded tables -/

/-- A session that has taken `n` records of the table, and its bank LOADING. -/
def loading (n : TableName) (count : Nat) : State :=
  { live with tbs.session := some ⟨n, count, 2000000⟩, tbs.cardFormat.loadState := .loading, tbs.item.loadState := .loading }

theorem witness_sessions :
    (Ready live ∧ tableNamed (ascii "NO_SUCH") = none ∧ tableNamed (ascii "HEADER_TRAILER") = some .headerTrailer ∧
     live.tbs.session = none ∧ live.tbs.loadState .headerTrailer ≠ .pending) ∧
    (Ready (loading .cardFormat 1) ∧ (loading .cardFormat 1).tbs.session = some ⟨.cardFormat, 1, 2000000⟩) ∧
    (let s := { live with tbs.item.loadState := .pending }; Ready s ∧ s.tbs.loadState .item = .pending) := by decide

theorem witness_records :
    (4 ≤ 4 ∧ 6 ≤ 6 ∧ 63 < 2 ^ 6 ∧ (15 : Nat) < 2 ^ 4 ∧ 2 ≤ 2 ∧ 79 ≤ 79 ∧ 40 ≤ 40 ∧ 11 ≠ 15 ∧ 11 ≠ 13 ∧ 15 ≠ 13 ∧
     ∀ e ∈ (loading .cardFormat 0).tbs.cardFormat.load, e.track ≠ .b) ∧
    (1 < (2 : Byte).toNat ∧ (3 : Byte).toNat < 4 ∧ 6 < (7 : Byte).toNat) ∧ ([0, 4, 11, 15, 13] : List Byte).length ≠ 6 := by
  decide

theorem witness_table_end :
    ((loading .item 2).tbs.session = some ⟨.item, 2, 2000000⟩ ∧ Ready (loading .item 2) ∧ 2 ≤ 1024 ∧
     (loading .item 2).swapReady .item = true ∧ 1 ≠ 2) ∧
    (let s := { loading .item 1024 with sru.openSlot := some (sale .opened []) }
     s.tbs.session = some ⟨.item, 1024, 2000000⟩ ∧ Ready s ∧ 1024 ≤ 1024 ∧ s.swapReady .item = false) ∧
    ((loading .code 2).tbs.session = some ⟨.code, 2, 2000000⟩ ∧ (loading .code 2).swapReady .code = true) := by decide

/-- The state after a command. -/
def after (i : Instr) (s : State) : State :=
  match exec i s with
  | .next t => t
  | .fault _ => s
  | .refused _ => s

/-- The response being sent. -/
def answer (s : State) : Option (Verdict × List Field) :=
  match s.lli.sending with
  | some (.response r) => some (r.verdict, r.fields)
  | some (.notice _) => none
  | some (.accUp _) => none
  | none => none

/-- What a session of this table, its bank LOADING, answers to a record. -/
def recorded (n : TableName) (entry : List Byte) : Option (Verdict × List Field) :=
  answer (after (.tableRecord 1 entry) { live with
    tbs.session := some ⟨n, 0, 2000000⟩
    tbs.item.load := [apples]
    tbs.code.load := codes
    tbs.font.load := [⟨65, List.replicate 24 0xFFF⟩]
    tbs.cardFormat.load := [format]
    tbs.headerTrailer.load := [⟨true, 4, ascii "BYE", false⟩] })

/-- The first record of a session is taken, or refused with a reason. -/
def took : Option (Verdict × List Field) := some (.ok, [.int 2 1])
def fails (r : Reason) : Option (Verdict × List Field) := some (.refused r, [])

/-- A font record of black rows, and a record of one-byte fields. -/
def glyph (code : Nat) : List Byte := natBytes 1 code ++ (List.replicate 24 0xFFFF).flatMap (natBytes 2)
def layout (l : List Nat) : List Byte := l.flatMap (natBytes 1)

set_option maxRecDepth 100000 in
/-- R174: item records at the boundaries of each check, in their order; Max1 of the record is 6000 g by 2 g. -/
theorem test_item_records :
    [itemRecord 999999 (List.replicate 24 65) 0 999999 (some 6000) true, itemRecord 1 [] 2 0 none false,
     itemRecord 0 (List.replicate 25 65) 0 0 none false, itemRecord 1000000 [] 0 0 none false,
     itemRecord 1 [] 3 0 none false, itemRecord 1 [] 0 1000000 none false,
     itemRecord 1 (List.replicate 25 65) 2 0 (some 2) false, itemRecord 1 [] 2 0 (some 2) false,
     itemRecord 1 [] 0 0 (some 6002) false, itemRecord 1 [] 0 0 (some 3) false, itemRecord 1 [] 0 0 (some 0) false,
     itemRecord 4011 [] 0 0 none false].map (recorded .item) =
      [took, took, fails .range, fails .range, fails .range, fails .range, fails .length, fails .range, fails .range,
       fails .range, fails .range, fails .duplicate] := by decide

set_option maxRecDepth 100000 in
/-- R175: code records at the boundaries of each check. -/
theorem test_code_records :
    [codeRecord (ascii "220000") 20 true 2 (some (14, 6)) (some (11, 9)), codeRecord (ascii "2") 8 false 3 none none,
     codeRecord [] 0 false 0 none none, codeRecord (ascii "2A") 0 false 0 none none,
     codeRecord (ascii "2") 7 false 0 none none, codeRecord (ascii "2") 8 false 4 none none,
     codeRecord (ascii "2") 8 false 1 none none, codeRecord (ascii "2") 0 false 1 (some (1, 7)) none,
     codeRecord (ascii "2") 8 true 1 (some (3, 6)) none, codeRecord (ascii "2") 0 false 0 none none].map (recorded .code) =
      [took, took, fails .range, fails .range, fails .range, fails .range, fails .range, fails .range, fails .range,
       fails .duplicate] := by decide

set_option maxRecDepth 100000 in
/-- R176: font, card format and header/trailer records at the boundaries of each check. -/
theorem test_other_records :
    [glyph 127, glyph 31, glyph 128, glyph 65].map (recorded .font) =
      [took, fails .range, fails .range, fails .duplicate] ∧
    [layout [0, 6, 5, 31, 28, 79], layout [2, 4, 1, 2, 3, 40], layout [1, 4, 1, 2, 3, 41],
     layout [0, 4, 16, 2, 3, 40], layout [1, 4, 2, 2, 3, 40], layout [1, 4, 11, 15, 13, 40]].map (recorded .cardFormat) =
      [took, fails .range, fails .range, fails .range, fails .range, fails .duplicate] ∧
    [headerRecord 0 4 (List.replicate 32 65) true, headerRecord 2 1 [] false,
     headerRecord 0 5 (List.replicate 33 65) false, headerRecord 0 1 (List.replicate 33 65) false,
     headerRecord 1 4 [] false].map (recorded .headerTrailer) =
      [took, fails .range, fails .range, fails .length, fails .duplicate] := by decide

set_option maxRecDepth 100000 in
theorem witness_table_records :
    (∀ n, ({ live with tbs.session := some ⟨n, 0, 2000000⟩ } : State).tbs.session = some ⟨n, 0, 2000000⟩) ∧
    (999999 < 2 ^ 32 ∧ 1000000 < 2 ^ 32 ∧ 6002 < 65536 ∧ (List.replicate 25 (65 : Byte)).length < 256 ∧
     (List.replicate 24 0xFFFF).length = 24 ∧ 0xFFFF < 65536) ∧
    (let s := { live with sst.image.record := ⟨0, 0, 0, 0, 0, 0, 0⟩ }
     ¬(s.sst.state = .intact ∧ s.sst.image.record.valid = true)) ∧
    (1024 ≤ (List.replicate 1024 apples).length ∧ 64 ≤ (codes ++ List.replicate 61 (⟨ascii "2", 9, false, .block, none, none⟩ : CodeEntry)).length) :=
  ⟨fun _ => rfl, by decide, by decide, by decide⟩

theorem witness_table_cancel :
    (Ready (loading .item 2) ∧ tableNamed (ascii "ITEM") = some .item ∧ tableNamed (ascii "NO_SUCH") = none ∧
     (loading .item 2).tbs.loadState .item = .loading ∧ (loading .item 2).tbs.session = some ⟨.item, 2, 2000000⟩) ∧
    (let s := { live with tbs.item.loadState := .pending }; Ready s ∧ s.tbs.loadState .item = .pending) ∧
    (Ready live ∧ live.tbs.loadState .item = .empty) := by decide

theorem witness_table_read :
    (let s := { live with
       tbs.code.active := codes, tbs.font := font, tbs.cardFormat.active := [format]
       tbs.headerTrailer.active := [⟨false, 1, ascii "HELLO", false⟩] }
     Ready s ∧ tableNamed (ascii "NO_SUCH") = none ∧ tableNamed (ascii "ITEM") = some .item ∧
     (s.tbs.look .item fun _ b => b.active.length) < 3 ∧ s.tbs.item.active[1]? = some apples ∧
     tableNamed (ascii "CODE") = some .code ∧ s.tbs.code.active[2]? = codes[2]? ∧ codes[2]?.isSome = true ∧
     tableNamed (ascii "FONT") = some .font ∧ s.tbs.font.active[1]? = some ⟨65, List.replicate 24 0xFFF⟩ ∧
     tableNamed (ascii "CARD_FORMAT") = some .cardFormat ∧ s.tbs.cardFormat.active[0]? = some format ∧
     tableNamed (ascii "HEADER_TRAILER") = some .headerTrailer ∧
     s.tbs.headerTrailer.active[0]? = some ⟨false, 1, ascii "HELLO", false⟩) := by decide

/-! ## Witnesses: reads and the invariant -/

theorem witness_status_reads :
    Ready live ∧
    (let s := { live with wch.state := .fault, wch.faultCause := some .converter }
     Ready s ∧ s.wch.state = .fault ∧ s.wch.faultCause = some .converter ∧ s.wch.capture = none) ∧
    (let s := withSale referring
     Ready s ∧ s.sru.place .opened = some referring ∧ referring.line? 2 = some waiting ∧ referring.line? 3 = none ∧
     s.sru.place (.other 2) = none) ∧
    (live.wch.state = .running ∧ live.wch.faultCause = none ∧ live.wch.last = some update ∧ update.figures = some figures ∧
     live.wch.ind.overload = false ∧ live.wch.ind.underload = false) ∧
    paramNamed (ascii "NO_SUCH") = none ∧ paramNamed (ascii "LINE_PITCH") = some .linePitch := by decide

/-- The part after reset with a sample before it. -/
def sampling : State := { State.reset with pending := [.sample 120480] }

theorem witness_kept : Kept sampling ∧ ∃ t, step sampling = .next t := by
  refine ⟨⟨?_, ⟨by decide, by decide, by decide, fun _ => by decide, by decide, trivial⟩, ?_, ⟨by decide, ?_, ?_, ?_⟩, ?_,
    ⟨by decide, by decide, by decide, ?_⟩⟩, _, rfl⟩
  · unfold BudgetKept; decide
  · unfold PaperKept; decide
  · rintro o ⟨⟩
  · exact fun o h => absurd h (by decide +revert)
  · rintro o ⟨⟩
  · unfold ParamsKept; decide
  · exact fun h => absurd h (by decide)

/-! ## Worked cases of the spec -/

/-- The state after some commands. -/
def run : List Instr → State → State
  | [], s => s
  | i :: is, s => run is (after i s)

/-- A channel whose next sample completes a ring of sixteen equal ones. -/
def beforeUpdate (v : Int) (tare : Tare) : State :=
  { live with wch.ring := List.replicate 15 v, wch.count := 15, wch.tare := tare }

set_option maxRecDepth 100000 in
/-- R53, R54: the integrity word with which a part leaves manufacture. -/
theorem test_manufactured_word : integrityWord SealedFigures.manufactured = SealedFigures.manufacturedWord := by decide

/-- 02, 2.4: F = 182,117 with a PRESET tare of 12 g. -/
theorem test_update_figures : (after (.sample 182117) (beforeUpdate 182117 (.preset 120))).wch.last =
    some ⟨182117, false, false, some ⟨3852, .preset 120, 3732, 3740, 2⟩⟩ := by decide

/-- 02, 2.4: the range boundary, updates A and B, and a negative net. -/
theorem test_range_boundary :
    ((after (.sample 1080352) (beforeUpdate 1080352 .none)).wch.last.bind Update.figures) = some ⟨59992, .none, 59992, 60000, 2⟩ ∧
    ((after (.sample 1080688) (beforeUpdate 1080688 .none)).wch.last.bind Update.figures) = some ⟨60013, .none, 60013, 60000, 5⟩ ∧
    ((after (.sample 120960) (beforeUpdate 120960 (.preset 120))).wch.last.bind Update.figures) =
      some ⟨30, .preset 120, -90, -100, 2⟩ := by decide

/-- R30, R12: the gross formed in ZERO_PENDING is not reported: the update of the initial zero keeps F alone. -/
theorem test_initial_zero_unreported :
    let s := { live with
      wch.state := .zeroPending, wch.zo := 0, wch.zi := none, wch.ring := List.replicate 64 120480
      wch.stabRef := some 30, wch.stabCount := 79 }
    let t := after (.sample 120480) s
    t.wch.state = .running ∧ t.wch.zo = 480 ∧ t.wch.last.map Update.f = some 120480 ∧
    (t.wch.last.bind Update.figures) = none := by decide

/-- R36: 374 g at 125 per 100 g and at 1,299 per kilogram; R38: the largest prices. -/
theorem test_prices : price 3740 125 .per100g = 468 ∧ price 3740 1299 .perKg = 486 ∧ price 3740 1199 .perKg = 448 ∧
    price 300000 999999 .per100g = 299999700 ∧ price 300000 999999 .perKg = 29999970 := by decide

/-- 02, 2.3: the crumb of 7 fine units moves Zo from 480 to 592. -/
theorem test_tracking_step :
    let s := { live with wch.trackDue := some 5, wch.last := some ⟨120592, false, false, some ⟨7, .none, 7, 0, 2⟩⟩ }
    (after .zeroTrackingExpiry s).wch.zo = 592 ∧ (after .zeroTrackingExpiry s).wch.trackDue = some 1000005 := by decide

/-- 01, a capture through a drawer kick: 374 g of apples are posted at 486, and the PRESET tare clears. -/
theorem test_capture_posts :
    let s := { capturing with
      wch.ring := List.replicate 64 182117, wch.tare := .preset 120, wch.stabRef := some 3852, wch.stabCount := 79 }
    let t := after (.sample 182117) s
    (t.sru.openSlot.bind fun o => o.lines[0]?.map fun l => (l.kind, l.state, l.amount)) = some (.weighed, .posted, 486) ∧
    t.wch.capture = none ∧ t.wch.interlock = true ∧ t.wch.tare = .none := by decide

/-- R39: at a unit price of 999,999 a quantity of 100 is accepted and 101 is refused LIMIT. -/
theorem test_item_add_limit :
    let s := { selling with tbs.item.active := [{ roll with unitPrice := 999999 }] }
    ((after (.itemAdd 3 3001 100) s).sru.openSlot.map Sale.itemTotal) = some 99999900 ∧
    answer (after (.itemAdd 3 3001 101) s) = some (.refused .limit, []) := by decide

/-- 04, a sale behind a halted receipt: its lines, the item total 736, and the change 764. -/
theorem test_sale_57 :
    let s := { selling with
      sru.closing := some { sale .closing [] with tag := 56, closingKind := some .settled }
      sst.image.saleCounter := 4217
      pen.state := .halted .paperOut
      pen.paperOut := true }
    let t := run [.itemAdd 1 3001 3, .itemText 2 (ascii "APPLES") 486, .itemAdd 3 9999 1, .itemText 4 (ascii "COUPON") (-100)] s
    let u := run [.referralAnswerAccept 6 3 (.amount 350), .lineVoid 7 1] t
    let v := run [.tenderCash 8 500, .tenderCash 9 1000] u
    (t.sru.openSlot.map fun o => (o.itemTotal, o.outstanding)) = some (1133, [3]) ∧
    ((after (.tenderCash 5 2000) t).lli.responses.getLast?.map Response.verdict) = some (.refused .state) ∧
    (u.sru.openSlot.map fun o => (o.itemTotal, o.lines.length)) = some (736, 5) ∧
    (v.sru.openSlot.map fun o => (o.state, o.tenderTotal, o.changeDue)) = some (.settled, 1500, 764) ∧
    (v.sru.openSlot.bind Sale.saleNumber) = some 4218 ∧ v.sst.image.grandTotal = 736 := by decide

/-- 04, a card tender that times out: the marker is set, and the late answer refused TOO_LATE. -/
theorem test_sale_58 :
    let s := { withSale (sale .opened [line 1 .item .posted 2000]) with sdc.slot := .held { card with serial := 311 } 99 }
    let t := after (.tenderCard 1 2000 311) s
    let u := run [.authorizationTimeout, .transmitEnd, .transmitEnd, .transmitEnd, .cardApprove 2 (ascii "A7731")] t
    (t.sru.openSlot.map Sale.state) = some .authWait ∧ t.sdc.slot.code = 2 ∧
    (u.sru.openSlot.map Sale.state) = some .opened ∧ u.sdc.slot = .empty ∧ u.sru.lateAnswer = true ∧
    answer u = some (.refused .tooLate, []) := by decide

/-- 03, settlements across a supply warning: the held totals are written when the warning clears. -/
theorem test_totals_after_warning :
    let s := { live with pbu.warning := true, sst.pendingTotals := true, sst.image.saleCounter := 4220
                         sst.image.grandTotal := 8354638, clock := 40000 }
    let t := after (.supplyWarningChange false) s
    t.sst.inFlight = some ⟨.totals 4220 8354638, 90000⟩ ∧ t.sst.pendingTotals = false ∧
    (after .writeComplete t).sst.array.grandTotal = 8354638 := by decide

/-- R56: with CONTROLLER_RESET taken, the end of a write starts no pending totals; held by a supply warning they start when
it clears (log 66). -/
theorem test_totals_while_a_reset_is_awaited :
    let s := { writing with sst.pendingTotals := true, lli.resetAnswer := .waiting }
    let t := after .writeComplete { s with pbu.warning := true }
    (after .writeComplete s).sst.inFlight = none ∧ t.sst.pendingTotals = true ∧
    (after (.supplyWarningChange false) t).sst.inFlight.isSome = true ∧
    (after .writeComplete { s with lli.resetAnswer := .none }).sst.inFlight.isSome = true := by decide

/-- R49, R46: with no candidate ranges the valid record of a DAMAGED store limits the mass of CAL_SPAN (log 38). -/
theorem test_span_on_a_damaged_store :
    let s := { calibrating { candidates with ranges := none } with sst.state := .damaged }
    answer (after (.calSpan 1 15001) s) = some (.refused .range, []) ∧
    answer (after (.calSpan 1 15000) s) = some (.accepted, []) := by decide

/-- 05, a card that slows down. -/
theorem test_card_slows :
    let d := [400, 404, 398, 402, 400, 396, 404, 402].foldl Decoder.interval { Decoder.idle with state := .leadin }
    let e := [396, 198, 202, 430, 452, 226].foldl Decoder.interval d
    d.cell = some 400 ∧ d.state = .bits ∧ e.buffer = [false, true, false, false] ∧ e.cell = some 417 ∧
    (e.interval 390).status = some .badBits ∧ (e.interval 390).state = .done := by decide

/-- The buffer of 05, a short track B. -/
def shortTrack : List Bool :=
  List.replicate 10 false ++
  [1, 1, 0, 1, 0, 1, 0, 1, 0, 1, 1, 0, 0, 1, 1, 1, 1, 1, 1, 1, 0, 0, 0, 1, 0].map (fun n : Nat => n == 1) ++
  List.replicate 6 false

/-- 05, a short track B, read forward. -/
theorem test_short_track : searchTrack format shortTrack = ⟨.ok, some .forward, [59, 53, 57, 63]⟩ ∧
    (let b := searchTrack format shortTrack; accountOf (some format) b = none) := by decide

/-- R95: in the reversed buffer a start across two characters is found forward (log 41); a track without one is REVERSE. -/
theorem test_short_track_reversed :
    searchTrack format shortTrack.reverse = ⟨.parity 3, some .forward, []⟩ ∧
    searchTrack format (trackBits 4 [11, 0, 0, 15]).reverse = ⟨.ok, some .reverse, [59, 48, 48, 63]⟩ := by decide

/-- 06, a drawer that jams: the first grant, the pulse's end, and the last confirm timer. -/
theorem test_drawer_jams :
    let s := { live with tlc.state := .waitGrant, tlc.auth := some (.settledCash 57), tlc.retries := 3 }
    (after .pulseTimerExpiry { s with tlc.state := .pulsing 53000, pbu.pulse := some 3000 }).tlc.state = .confirming 553000 ∧
    (after .confirmTimerExpiry { s with tlc.state := .confirming 2176000 }).tlc.state = .jammed ∧
    (after .drawerSwitchOpens { s with tlc.state := .jammed, clock := 9000000 }).tlc = ⟨true, none, 0, .opened false 39000000⟩ := by
  decide

/-- 07, one row at three densities. -/
theorem test_row_densities :
    splitPhases 128 [40, 64, 10, 0, 50, 30] = [⟨[0, 1, 2], 114⟩, ⟨[4, 5], 80⟩] ∧
    splitPhases 64 [40, 64, 10, 0, 50, 30] = [⟨[0], 40⟩, ⟨[1], 64⟩, ⟨[2, 4], 60⟩, ⟨[5], 30⟩] ∧
    splitPhases 384 [40, 64, 10, 0, 50, 30] = [⟨[0, 1, 2, 4, 5], 194⟩] ∧
    (splitPhases 64 [40, 64, 10, 0, 50, 30]).map Phase.cost = [3, 4, 4, 2] := by decide

/-- 09, one code table and six reads. -/
theorem test_six_reads :
    let table := codes ++ [⟨ascii "21", 0, false, .block, none, none⟩]
    codeAction table (ascii "2004011000002") = .weigh 4011 ∧ codeAction table (ascii "2004011000003") = .block .check ∧
    codeAction table (ascii "2103001004867") = .embedded 3001 486 ∧ codeAction table (ascii "21030010048") = .block .table ∧
    codeAction table (ascii "4011") = .forward ∧ codeAction table (ascii "2") = .block .table := by decide

/-- 10, a price change: the pending item table becomes generation 8 when a settlement empties the open slot. -/
theorem test_price_change :
    let s := { withSale (sale .opened [line 1 .item .posted 500]) with
      tbs.item := ⟨[apples], [{ apples with unitPrice := 1199 }], .pending, 7, none⟩ }
    let t := after (.tenderCash 1 500) s
    t.sru.openSlot = none ∧ t.tbs.item.generation = 8 ∧ t.tbs.item.active = [{ apples with unitPrice := 1199 }] ∧
    .table .item 8 .swapped ∈ t.lli.notices := by decide

/-- 11, coalescing: the OPEN detail of DRAWER is replaced by CLOSED, and READ_EVENTS carries kinds 2 and 11. -/
theorem test_coalescing :
    let s := { live with
      lli.sending := some (.accUp ⟨1, 0, List.replicate 200 0⟩)
      tlc.state := .pulsing 50000, pbu.pulse := some 0, wch.window := .opened none }
    let t := run [.pulseTimerExpiry, .drawerSwitchOpens, .disturbanceWindowClose, .drawerSwitchCloses] s
    t.lli.notices.map Notice.kind = [2, 11] ∧ .drawer .closed false none ∈ t.lli.notices ∧
    (after (.readEvents 4) t).lli.notices = [] ∧ (after (.readEvents 4) t).lli.responses.length = 1 := by decide

/-- R193: an unknown name is refused UNKNOWN; R197: a value outside its range takes the nearer limit. -/
theorem test_lane_requests :
    answer (after (.unknownRequest 1 (ascii "NO_SUCH" ++ [0])) live) = some (.refused .unknown, []) ∧
    answer (after (.setParam 1 (ascii "DRAWER_PULSE") 5000) live) = some (.ok, [.int 4 200]) ∧
    answer (after (.setParam 1 (ascii "FILTER_LENGTH") 24) live) = some (.ok, [.int 4 32]) := by decide

/-- R197: every plain parameter is held to the ends of its range. -/
theorem test_parameter_ranges : ∀ x ∈ [("STABILITY_COUNT", 20, 200), ("CAPTURE_TIMEOUT", 500, 10000),
    ("DISTURBANCE_SETTLE", 50, 500), ("CARD_EXPIRY", 10, 300), ("AUTH_TIMEOUT", 30, 300), ("REFERRAL_TIMEOUT", 30, 600),
    ("DRAWER_PULSE", 20, 200), ("DRAWER_CONFIRM", 200, 2000), ("DRAWER_OVERDUE", 5, 300), ("PRINT_DENSITY", 64, 384),
    ("LINE_PITCH", 24, 48), ("AMOUNT_DECIMALS", 0, 3), ("MASK_LEAD_DIGITS", 0, 6)],
    answer (after (.setParam 1 (ascii x.1) 0xFFFFFFFF) live) = some (.ok, [.int 4 x.2.1]) ∧
    answer (after (.setParam 1 (ascii x.1) 20000) live) = some (.ok, [.int 4 x.2.2]) := by decide

/-- R158, R167: a unit that had NONE, and one whose held read is released, wait for the next round. -/
theorem test_units_left_for_the_next_round :
    (after (.setParam 1 (ascii "ACCESSORY_ROLES") 0x01020300) { live with acp.visit := some ⟨1, 0, [], false⟩ }).acp.later =
      [3] ∧
    (after .captureTimerExpiry { capturing with
      acp.visit := some ⟨1, 0, [], false⟩, acp.held := some ⟨⟨2, 0, ascii "A2004011000002"⟩, 4011⟩ }).acp.later = [2] ∧
    (after .roundStart { live with acp.visit := none, acp.later := [3] }).acp.later = [] := by decide

/-- R134: a cycle that never showed AWAY ends in a halt with CUTTER; R140: a resumed one cuts again. -/
theorem test_cutter_timeout :
    let t := after .cutterTimeout (cutting .settled)
    t.pen.state = .halted .cutter ∧ (after (.printResume 1) t).pen.state = .cutting 1600000 true := by decide

end Sys2Proof.Tests
end

section
/-! Proofs about the weighing channel: the tare requests (R15). -/

namespace Sys2Proof.Machine

open Sys2Proof

/-! ## Rounding of a tare -/

/-- On a value that is not negative, half away from zero is half up. -/
theorem roundHalfAway_natCast (n d : Nat) : roundHalfAway n d = roundHalfUp n d := by
  rw [roundHalfAway, if_neg (Int.natCast_nonneg n).not_gt, Int.natAbs_natCast, roundHalfUp]

theorem roundTare_eq (r : CalRecord) (grams : Nat) : r.roundTare grams = r.e1 * (roundHalfAway grams r.e1).toNat := by
  rw [roundHalfAway_natCast, Int.toNat_natCast, CalRecord.roundTare]

/-! ## A tare that is set -/

/-- The tare record replaced (R14 to R16). -/
def withTare (t : Tare) (s : State) : State := { s with wch := { s.wch with tare := t } }

@[simp] theorem withTare_wch (t : Tare) (s : State) : (withTare t s).wch = { s.wch with tare := t } := rfl

theorem withTare_works (t : Tare) (s : State) : Works [.weighing] [] s (withTare t s) := by
  refine Works.of rfl rfl rfl rfl fun p hp => ?_
  cases p with
  | weighing => exact absurd (List.mem_singleton_self _) hp
  | _ => rfl

/-- WEIGHT carries whether a tare is active (R26). -/
theorem detail_ne_of_tare_cleared {w : Wch} (h : w.tare ≠ .none) : w.detail ≠ { w with tare := .none }.detail := by
  intro he
  have hbits : w.bits.tareActive = { w with tare := .none }.bits.tareActive := by
    injection he with _ hb
    rw [hb]
  simp [Wch.bits, h] at hbits

theorem setTare_eq (t : Tare) (s : State) :
    setTare t s = okay [.int 2 (t.value / 10 : Nat)] (raiseWeight (withTare t s)) := rfl

theorem setTare_works (t : Tare) (s : State) : Works [.weighing] [2] s (setTare t s).1 :=
  ((withTare_works t s).mono (by simp) (by simp)).raised List.mem_cons_self

theorem setTare_wch (t : Tare) (s : State) : (setTare t s).1.wch = { s.wch with tare := t } := rfl

/-- After the end of its event a tare that was set is known as WEIGHT, whether or not a bit changed. -/
theorem setTare_notified (t : Tare) (a s : State) (x : Response) :
    Notified (finish a (respond x (setTare t s).1)) (setTare t s).1.wch.detail := by
  have hstands : Standing (raiseWeight (withTare t s)) (withTare t s).wch.detail := standing_raise _ _
  exact Standing.finish_weight a (hstands.of_notices (t := respond x (setTare t s).1) rfl)

/-! ## WEIGH_PRESET_TARE (R15) -/

theorem weighPresetTare_not_running {grams : Nat} {s : State} (h : s.wch.state ≠ .running) :
    weighPresetTare grams s = refuse .state s := if_pos h

theorem weighPresetTare_capturing {grams : Nat} {s : State} (h : s.wch.state = .running) (hc : s.wch.capture ≠ none) :
    weighPresetTare grams s = refuse .busy s := by
  simp [weighPresetTare, h, Option.isSome_iff_ne_none.mpr hc]

theorem weighPresetTare_taken {grams : Nat} {s : State} {r : CalRecord} (h : s.wch.state = .running)
    (hc : s.wch.capture = none) (hr : s.record? = some r) :
    weighPresetTare grams s =
      if r.roundTare grams = 0 then refuse .range s else setTare (.preset (min (r.roundTare grams) r.max1 * 10)) s := by
  simp [weighPresetTare, h, hc, hr]

/-! ## WEIGH_CLEAR_TARE (R15) -/

theorem weighClearTare_cal {s : State} (h : s.wch.state = .cal) : weighClearTare s = refuse .state s := if_pos h

theorem weighClearTare_capturing {s : State} (h : s.wch.state ≠ .cal) (hc : s.wch.capture ≠ none) :
    weighClearTare s = refuse .busy s := by
  simp [weighClearTare, h, Option.isSome_iff_ne_none.mpr hc]

theorem weighClearTare_taken {s : State} (h : s.wch.state ≠ .cal) (hc : s.wch.capture = none) :
    weighClearTare s = okay [] (withTare .none s) := by
  simp [weighClearTare, withTare, h, hc]

/-! ## The tare requests at the router -/

theorem AtRouter.wch {i : Instr} {s u : State} (h : AtRouter i s u) : u.wch = s.wch := by
  obtain ⟨q, rfl⟩ := h.eq
  rfl

theorem AtRouter.record {i : Instr} {s u : State} (h : AtRouter i s u) : u.record? = s.record? := by
  obtain ⟨q, rfl⟩ := h.eq
  rfl

theorem exec_weighPresetTare (tag : Byte) (grams : Nat) (s : State) :
    exec (.weighPresetTare tag grams) s = request (.weighPresetTare tag grams) tag (weighPresetTare grams) s := rfl

theorem exec_weighClearTare (tag : Byte) (s : State) :
    exec (.weighClearTare tag) s = request (.weighClearTare tag) tag weighClearTare s := rfl

/-- R15: a preset tare that does not round to 0 becomes the record, held to Max1. -/
theorem weighPresetTare_serves {tag : Byte} {grams : Nat} {s : State} {r : CalRecord} (h : s.wch.state = .running)
    (hc : s.wch.capture = none) (hr : s.record? = some r) (hv : r.roundTare grams ≠ 0) :
    Serves (.weighPresetTare tag grams) tag s .ok (fun _ => [.int 2 (min (r.roundTare grams) r.max1 : Nat)]) [.weighing] [2]
      fun u t => t.wch = { u.wch with tare := .preset (min (r.roundTare grams) r.max1 * 10) } ∧ Notified t t.wch.detail := by
  refine serves_of (exec_weighPresetTare tag grams s) fun u hu => ?_
  have hset : weighPresetTare grams u = setTare (.preset (min (r.roundTare grams) r.max1 * 10)) u := by
    rw [weighPresetTare_taken (hu.wch ▸ h) (hu.wch ▸ hc) (hu.record ▸ hr), if_neg hv]
  rw [hset]
  refine ⟨?_, setTare_works _ u, .inr List.mem_cons_self, ?_, ?_⟩
  · rw [setTare_eq, Tare.value, Nat.mul_div_cancel _ (by decide), okay]
  · rw [finish_wch, respond_wch, setTare_wch]
  · rw [finish_wch, respond_wch]
    exact setTare_notified _ s u _

/-- R15: clearing makes the record NONE; WEIGHT is raised for a tare that stood. -/
theorem weighClearTare_serves {tag : Byte} {s : State} (h : s.wch.state ≠ .cal) (hc : s.wch.capture = none) :
    Serves (.weighClearTare tag) tag s .ok (fun _ => []) [.weighing] [2] fun u t =>
      t.wch = { u.wch with tare := .none } ∧ (u.wch.tare ≠ .none → Notified t t.wch.detail) := by
  refine serves_of (exec_weighClearTare tag s) fun u hu => ?_
  rw [weighClearTare_taken (hu.wch ▸ h) (hu.wch ▸ hc)]
  refine ⟨rfl, (withTare_works _ u).mono (by simp) (by simp), .inr List.mem_cons_self, ?_, fun ht => ?_⟩
  · rw [finish_wch]
    rfl
  · rw [finish_wch]
    refine notified_weight ?_
    rw [← hu.wch]
    exact detail_ne_of_tare_cleared ht

/-- Settles O19: each branch of the two requests, served or refused at the router. -/
theorem tareRequestsSetAndClearTheRecord : Obligations.TareRequestsSetAndClearTheRecord := by
  unfold Obligations.TareRequestsSetAndClearTheRecord
  refine ⟨fun tag grams s => ⟨fun h => ?_, fun h hc => ?_, fun r h hc hr => ?_⟩,
    fun tag s => ⟨weighClearTare_serves, fun h => ?_, fun h hc => ?_⟩⟩
  · exact refuses_of (exec_weighPresetTare tag grams s) fun u hu => weighPresetTare_not_running (hu.wch ▸ h)
  · exact refuses_of (exec_weighPresetTare tag grams s) fun u hu =>
      weighPresetTare_capturing (hu.wch ▸ h) (hu.wch ▸ hc)
  · rw [← roundTare_eq]
    refine ⟨fun hv => ?_, weighPresetTare_serves h hc hr⟩
    refine refuses_of (exec_weighPresetTare tag grams s) fun u hu => ?_
    rw [weighPresetTare_taken (hu.wch ▸ h) (hu.wch ▸ hc) (hu.record ▸ hr), if_pos hv]
  · exact refuses_of (exec_weighClearTare tag s) fun u hu => weighClearTare_cal (hu.wch ▸ h)
  · exact refuses_of (exec_weighClearTare tag s) fun u hu => weighClearTare_capturing (hu.wch ▸ h) (hu.wch ▸ hc)

end Sys2Proof.Machine
end

section
/-! Proofs about certified mass and price: the price rule (R36). -/

namespace Sys2Proof.Machine

open Sys2Proof

/-! ## Rounding half up -/

/-- The rounding half up of `num / den` is the number `q` with `q - 1/2 ≤ num / den < q + 1/2`. -/
theorem roundHalfUp_eq_iff {num den q : Nat} (hd : 0 < den) :
    roundHalfUp num den = q ↔ 2 * den * q ≤ 2 * num + den ∧ 2 * num + den < 2 * den * (q + 1) := by
  rw [roundHalfUp, Nat.div_eq_iff (by omega), Nat.mul_comm q, Nat.mul_add_one]
  omega

/-! ## The price of a mass -/

theorem Basis.divisor_pos (b : Basis) : 0 < b.divisor := by
  cases b <;> decide

theorem price_eq_iff {i : Int} {u q : Nat} {b : Basis} :
    price i u b = q ↔ 2 * b.divisor * q ≤ 2 * ((i / 10).toNat * u) + b.divisor ∧
      2 * ((i / 10).toNat * u) + b.divisor < 2 * b.divisor * (q + 1) :=
  roundHalfUp_eq_iff b.divisor_pos

@[simp] theorem price_zero (i : Int) (b : Basis) : price i 0 b = 0 := by
  have hd := b.divisor_pos
  rw [price_eq_iff]
  omega

/-! ## The line of a capture result -/

/-- R37: an item without its REFER flag is posted at its price where the price keeps within the limit of a line. -/
theorem weighedPricing_posted {e : ItemEntry} {certified : Int} (hrefer : e.refer = false)
    (hlimit : price certified e.unitPrice e.basis ≤ maxLineAmount) :
    weighedPricing (some e) certified = (none, price certified e.unitPrice e.basis) := by
  rw [weighedPricing, hrefer, if_neg Bool.false_ne_true, if_neg (Nat.not_lt.mpr hlimit)]

theorem weighedLine_amount (c : Capture) (g : Figures) :
    (weighedLine c g).amount = (weighedPricing c.item g.certified).2 := rfl

theorem weighedLine_state (c : Capture) (g : Figures) :
    (weighedLine c g).state = if (weighedPricing c.item g.certified).1.isSome then .referred else .posted := rfl

theorem weighedLine_unitPrice (c : Capture) (g : Figures) :
    (weighedLine c g).unitPrice = c.item.map ItemEntry.unitPrice := rfl

theorem weighedLine_basis (c : Capture) (g : Figures) :
    (weighedLine c g).basis = c.item.map ItemEntry.basis := rfl

/-- Settles O12: the price is characterised by its two rounding bounds, and the weighed line takes it from the pricing. -/
theorem priceIsMassTimesUnitPriceRoundedHalfUp : Obligations.PriceIsMassTimesUnitPriceRoundedHalfUp := by
  unfold Obligations.PriceIsMassTimesUnitPriceRoundedHalfUp
  refine ⟨fun i u b d _ hbasis => ?_, price_zero, fun c g e hitem hrefer hlimit => ?_⟩
  · have hd : b.divisor = d := by
      obtain ⟨rfl, rfl⟩ | ⟨rfl, rfl⟩ := hbasis <;> rfl
    exact hd ▸ price_eq_iff.mp rfl
  · have hpricing : weighedPricing c.item g.certified = (none, price g.certified e.unitPrice e.basis) :=
      hitem ▸ weighedPricing_posted hrefer hlimit
    refine ⟨?_, ?_, ?_, ?_⟩
    · rw [weighedLine_amount, hpricing]
    · rw [weighedLine_state, hpricing, Option.isSome_none, if_neg Bool.false_ne_true]
    · rw [weighedLine_unitPrice, hitem, Option.map_some]
    · rw [weighedLine_basis, hitem, Option.map_some]

end Sys2Proof.Machine
end

section
/-! Proofs about the sale: ITEM_TEXT (R69, R65). -/

namespace Sys2Proof.Machine

open Sys2Proof

/-! ## Admission of a posted line (R65) -/

theorem admits_posted_iff {o : Sale} {l : Line} (h : l.state = .posted) :
    o.admits l = true ↔
      o.lines.length < 200 ∧ 0 ≤ o.itemTotal + l.amount ∧ o.itemTotal + l.amount ≤ 999999999 := by
  have hposted : l.state ≠ .referred := by rw [h]; decide
  simp only [Sale.admits, if_neg hposted, Sale.hasRoom, Sale.totalFits, Bool.and_eq_true, decide_eq_true_iff]
  rfl

theorem lineAmountFits_iff {a : Int} : lineAmountFits a = true ↔ a.natAbs ≤ 99999999 := decide_eq_true_iff

/-! ## A posted line appended -/

/-- Work of the composer and the printer changes what WEIGHT carries only where the printer was IDLE: the grants it may then
obtain can open a disturbance window. -/
theorem detail_of_printer_works {s t : State} (h : Works (.sale :: s.printParts) s.printKinds s t) :
    s.wch.detail = t.wch.detail ∨ 2 ∈ s.printKinds := by
  by_cases hidle : s.pen.state = .idle
  · exact .inr (by simp [State.printKinds, hidle])
  · obtain ⟨_, _, _, hparts, _⟩ := h
    have hwch : t.wch = s.wch := hparts .weighing (by simp [State.printParts, hidle])
    exact .inl (congrArg Wch.detail hwch.symm)

/-- A request that appends a posted line to the open sale, at the router. -/
theorem serves_of_addLine_posted {i : Instr} {tag : Byte} {h : State → State × Reply} {s : State} {fs : List Field}
    {o : Sale} {l : Line} (he : exec i s = request i tag h s)
    (hu : ∀ u, AtRouter i s u → h u = okay fs (addLine o l none u)) :
    Serves i tag s .ok (fun _ => fs) (.sale :: s.printParts) s.printKinds fun u t =>
      t.sru.unprinted = ({ u.sru with openSlot := some (o.append l) } : Sru).unprinted := by
  refine serves_of he fun u hr => ?_
  obtain ⟨hparts, hkinds⟩ : u.printParts = s.printParts ∧ u.printKinds = s.printKinds := by
    obtain ⟨q, rfl⟩ := hr.eq
    exact ⟨rfl, rfl⟩
  have hworks := addLine_posted_works o l u
  have hdetail := detail_of_printer_works hworks
  rw [hparts, hkinds] at hworks
  rw [hkinds] at hdetail
  rw [hu u hr]
  refine ⟨rfl, hworks, hdetail, ?_⟩
  rw [finish_sru, respond_sru]
  exact addLine_unprinted o l none u

/-! ## ITEM_TEXT (R69) -/

theorem AtRouter.openSale {i : Instr} {s u : State} (h : AtRouter i s u) : u.openSale? = s.openSale? := by
  obtain ⟨q, rfl⟩ := h.eq
  rfl

theorem exec_itemText (tag : Byte) (text : List Byte) (amount : Int) (s : State) :
    exec (.itemText tag text amount) s = request (.itemText tag text amount) tag (itemText text amount) s := rfl

section
variable {text : List Byte} {amount : Int} {s : State} {o : Sale}

theorem itemText_no_sale (h : s.openSale? = none) : itemText text amount s = refuse .state s := by
  simp [itemText, h]

theorem itemText_range (h : s.openSale? = some o) (ha : 99999999 < amount.natAbs) :
    itemText text amount s = refuse .range s := by
  have hfits : lineAmountFits amount = false := Bool.eq_false_iff.mpr fun hf => ha.not_ge (lineAmountFits_iff.mp hf)
  simp [itemText, h, hfits]

theorem itemText_length (h : s.openSale? = some o) (ha : amount.natAbs ≤ 99999999) (ht : 24 < text.length) :
    itemText text amount s = refuse .length s := by
  simp [itemText, h, lineAmountFits_iff.mpr ha, ht]

/-- With the amount in range and the text short enough, the admission checks alone decide. -/
theorem itemText_checked (h : s.openSale? = some o) (ha : amount.natAbs ≤ 99999999) (ht : text.length ≤ 24) :
    itemText text amount s =
      if o.lines.length < 200 ∧ 0 ≤ o.itemTotal + amount ∧ o.itemTotal + amount ≤ 999999999 then
        okay [.int 1 (o.lines.length + 1 : Nat)] (addLine o (Line.plain .text .posted text amount) none s)
      else refuse .limit s := by
  have hadmits := admits_posted_iff (o := o) (l := Line.plain .text .posted text amount) rfl
  simp only [itemText, h, lineAmountFits_iff.mpr ha, ht.not_gt, hadmits]
  rfl

end

/-- Settles O30: the refusals in the order of the checks, then the line that the admission checks let in. -/
theorem itemTextAppendsATextLine : Obligations.ItemTextAppendsATextLine := by
  unfold Obligations.ItemTextAppendsATextLine
  intro tag text amount s
  have he := exec_itemText tag text amount s
  refine ⟨fun h => ?_, fun o h => ⟨fun ha _ => ?_, fun ha ht => ?_, fun ha ht hlimit => ?_, fun ha ht hroom hlow hhigh => ?_⟩⟩
  · exact refuses_of he fun u hu => itemText_no_sale (hu.openSale.trans h)
  · exact refuses_of he fun u hu => itemText_range (hu.openSale.trans h) ha
  · exact refuses_of he fun u hu => itemText_length (hu.openSale.trans h) ha ht
  · refine refuses_of he fun u hu => ?_
    rw [itemText_checked (hu.openSale.trans h) ha ht, if_neg (by omega)]
  · refine serves_of_addLine_posted (l := Line.plain .text .posted text amount) he fun u hu => ?_
    rw [itemText_checked (hu.openSale.trans h) ha ht, if_pos ⟨hroom, hlow, hhigh⟩]

end Sys2Proof.Machine
end

section
/-! Proofs about card tenders: the masked account (R104), and what SET_PARAM leaves alone (R197, R158, R169). -/

namespace Sys2Proof.Machine

open Sys2Proof

/-! ## The masked account (R104) -/

section
variable {m : Nat} {account : List Byte}

/-- An account long enough for its lead and its last four digits falls into three parts, and the middle one is masked. -/
theorem maskAccount_eq (h : m + 4 ≤ account.length) :
    maskAccount m account =
      account.take m ++ (List.replicate (account.length - 4 - m) 42 ++ account.drop (account.length - 4)) := by
  have hmiddle : account.length - m - 4 = account.length - 4 - m := by omega
  have htail : max m (account.length - 4) = account.length - 4 := by omega
  rw [maskAccount, hmiddle, htail, List.append_assoc]

theorem length_lead (h : m + 4 ≤ account.length) : (account.take m).length = m :=
  List.length_take_of_le (by omega)

theorem maskAccount_length (h : m + 4 ≤ account.length) : (maskAccount m account).length = account.length := by
  simp only [maskAccount_eq h, List.length_append, length_lead h, List.length_replicate, List.length_drop]
  omega

theorem maskAccount_take (h : m + 4 ≤ account.length) : (maskAccount m account).take m = account.take m := by
  rw [maskAccount_eq h, List.take_left' (length_lead h)]

theorem maskAccount_drop (h : m + 4 ≤ account.length) :
    (maskAccount m account).drop (account.length - 4) = account.drop (account.length - 4) := by
  have hfront : (account.take m ++ List.replicate (account.length - 4 - m) (42 : Byte)).length = account.length - 4 := by
    rw [List.length_append, length_lead h, List.length_replicate]
    omega
  rw [maskAccount_eq h, ← List.append_assoc, List.drop_left' hfront]

theorem maskAccount_between (h : m + 4 ≤ account.length) {i : Nat} (hlead : m ≤ i) (hlast : i < account.length - 4) :
    (maskAccount m account)[i]? = some 42 := by
  have hstar : i - m < account.length - 4 - m := by omega
  rw [maskAccount_eq h, List.getElem?_append_right (by rwa [length_lead h]), length_lead h,
    List.getElem?_append_left (by rwa [List.length_replicate]), List.getElem?_replicate_of_lt hstar]

end

theorem cardLine_card_of_bound {c : CardTender} {code account : List Byte} {r : CardRecord} {s : State}
    (hslot : s.sdc.slot = .bound r) (haccount : r.account = some account) :
    (cardLine c code s).card = some ⟨maskAccount s.lli.params.maskLeadDigits account, code, c.serial⟩ := by
  simp [cardLine, hslot, CardSlot.record?, haccount]

/-! ## The roles (R158) -/

theorem withAcp_works (a : Acp) (s : State) : Works [.accessory] [] s { s with acp := a } :=
  Works.of rfl rfl rfl rfl fun p hp => by
    cases p with
    | accessory => exact absurd (List.mem_singleton_self _) hp
    | _ => rfl

theorem mirrorSync_works (s : State) : Works [.accessory] [] s (mirrorSync s) := by
  unfold mirrorSync
  split <;> exact withAcp_works _ s

theorem visitFrom_works (ns : List Nat) (s : State) : Works [.accessory] [] s (visitFrom ns s) := by
  induction ns with
  | nil => exact withAcp_works _ s
  | cons n rest ih =>
    unfold visitFrom visit
    split
    · exact ih
    · split <;> exact withAcp_works _ s

theorem endVisit_works (s : State) : Works [.accessory] [] s (endVisit s) := by
  unfold endVisit
  split
  · split
    · exact visitFrom_works _ s
    · exact Works.refl _ _ s
  · exact Works.refl _ _ s

theorem changeRoles_works (rs : List Role) (s : State) : Works [.accessory] [] s (changeRoles rs s) := by
  unfold changeRoles
  refine List.foldlRecOn (motive := Works [.accessory] [] s) _ _ (Works.refl _ _ s) fun t ht p _ => ?_
  split
  · exact ht
  · exact ht.trans (withAcp_works _ t)

theorem setRoles_works (rs : List Role) (s : State) : Works [.accessory] [14] s (setRoles rs s) := by
  have widen {t u : State} (h : Works [.accessory] [] t u) : Works [.accessory] [14] t u :=
    h.mono (fun _ => id) (List.forall_mem_nil _)
  have hroles := widen (changeRoles_works rs s)
  unfold setRoles
  refine Works.trans ?_ ((widen (mirrorSync_works _)).trans (widen (endVisit_works _)))
  split
  · exact hroles
  · exact hroles.trans (discardHeld_works _)

/-! ## SET_PARAM (R197) -/

theorem withLinkParams_works (p : Params) (s : State) :
    Works [.link] [] s { s with lli := { s.lli with params := p } } :=
  Works.of rfl rfl rfl rfl fun q hq => by
    cases q with
    | link => exact absurd (List.mem_singleton_self _) hq
    | _ => rfl

theorem relearn_works (s : State) : Works [.weighing] [] s { s with wch := s.wch.relearn } :=
  Works.of rfl rfl rfl rfl fun p hp => by
    cases p with
    | weighing => exact absurd (List.mem_singleton_self _) hp
    | _ => rfl

/-- R4: a filter length may clear stability; R158, R169: the roles and the mirror act on the accessory port. No parameter
does more. -/
theorem setParam_works (k : Param) (v : BitVec 32) (s : State) :
    Works [.link, .weighing, .accessory] [14] s (setParam k v s) := by
  have hparams : Works [.link, .weighing, .accessory] [14] s
      { s with lli := { s.lli with params := s.lli.params.set k v.toInt } } :=
    (withLinkParams_works _ s).mono (by simp) (by simp)
  cases k with
  | accessoryRoles => exact (setRoles_works _ s).mono (by simp) (fun _ => id)
  | displayMirror => exact hparams.trans ((mirrorSync_works _).mono (by simp) (by simp))
  | filterLength =>
    unfold setParam
    dsimp only
    split
    · exact hparams
    · exact hparams.trans ((relearn_works _).mono (by simp) (by simp))
  | _ => exact hparams

theorem setParamNamed_works (name : List Byte) (v : BitVec 32) (s : State) :
    Works [.link, .weighing, .accessory] [14] s (setParamNamed name v s).1 := by
  unfold setParamNamed
  split
  · exact Works.refl _ _ s
  · exact setParam_works _ v s

theorem setParamNamed_sru (name : List Byte) (v : BitVec 32) (s : State) : (setParamNamed name v s).1.sru = s.sru := by
  obtain ⟨_, _, _, hparts, _⟩ := setParamNamed_works name v s
  exact hparts .sale (by decide)

theorem exec_setParam (tag : Byte) (name : List Byte) (v : BitVec 32) (s : State) :
    exec (.setParam tag name v) s = request (.setParam tag name v) tag (setParamNamed name v) s := rfl

/-- A request that the router takes leaves the sales as its block's answer does. -/
theorem sru_of_request {i : Instr} {tag : Byte} {h : State → State × Reply} {s u t : State} (hr : AtRouter i s u)
    (ht : request i tag h s = .next t) : t.sru = (h u).1.sru := by
  rw [request, request_taken hr] at ht
  cases ht
  rw [finish_sru, answer, respond_sru]

/-- Settles O42: the three parts of the masked account, the line that takes it, and the frame of SET_PARAM. -/
theorem maskedAccountKeepsLeadAndLastFour : Obligations.MaskedAccountKeepsLeadAndLastFour := by
  unfold Obligations.MaskedAccountKeepsLeadAndLastFour
  refine ⟨fun m account hm hmin _ => ?_, fun c code account r s => cardLine_card_of_bound, fun tag name v s u t hr ht => ?_⟩
  · have hroom : m + 4 ≤ account.length := by omega
    exact ⟨maskAccount_length hroom, maskAccount_take hroom, maskAccount_drop hroom,
      fun i => maskAccount_between hroom, by omega⟩
  · rw [exec_setParam] at ht
    exact (sru_of_request hr ht).trans (setParamNamed_sru name v u)

end Sys2Proof.Machine
end

section
/-! Proofs about receipt printing: the phase splitter (R131), and the row whose phases it gives (R130, R132). -/

namespace Sys2Proof.Machine

open Sys2Proof

/-! ## The phases of the splitter (R131)

The splitter is given each block `j` with its count of dots, `c j`. -/

section
variable {dMax : Nat} {c : Nat → Nat}

/-- A phase that can be printed: some blocks, their dots, and no more of them than `dMax`. -/
structure Packs (dMax : Nat) (c : Nat → Nat) (p : Phase) : Prop where
  blocks_ne : p.blocks ≠ []
  dots_eq : p.dots = (p.blocks.map c).sum
  dots_pos : 0 < p.dots
  dots_le : p.dots ≤ dMax

/-- The phase `p` has no room for the first block of `q`. -/
def NoRoom (dMax : Nat) (c : Nat → Nat) (p q : Phase) : Prop := ∀ j, q.blocks.head? = some j → dMax < p.dots + c j

theorem Packs.opened {j : Nat} (hj : c j ≠ 0) (hle : c j ≤ dMax) : Packs dMax c ⟨[j], c j⟩ :=
  ⟨List.cons_ne_nil _ _, by simp, Nat.pos_of_ne_zero hj, hle⟩

theorem Packs.joined {p : Phase} {j : Nat} (hp : Packs dMax c p) (hroom : p.dots + c j ≤ dMax) :
    Packs dMax c ⟨p.blocks ++ [j], p.dots + c j⟩ :=
  ⟨by simp, by simp [hp.dots_eq], Nat.add_pos_left hp.dots_pos _, hroom⟩

/-- Each block of `xs` stands with its count. -/
def Counted (c : Nat → Nat) (xs : List (Nat × Nat)) : Prop := ∀ x ∈ xs, x.2 = c x.1

theorem counted_cons {j b : Nat} {rest : List (Nat × Nat)} : Counted c ((j, b) :: rest) ↔ b = c j ∧ Counted c rest :=
  List.forall_mem_cons

/-- Where the open phase can be printed and every block fits into a phase of its own, every phase can be printed. -/
theorem splitFrom_packs {xs : List (Nat × Nat)} {cur : Option Phase} (hcount : Counted c xs)
    (hle : ∀ j, c j ≤ dMax) (hcur : ∀ p ∈ cur, Packs dMax c p) :
    ∀ p ∈ splitFrom dMax xs cur, Packs dMax c p := by
  fun_induction splitFrom dMax xs cur with
  | case1 => simp
  | case2 p => simpa using hcur
  | case3 _ _ _ ih => exact ih (counted_cons.mp hcount).2 hcur
  | case4 j b rest hb ih =>
    obtain ⟨rfl, hrest⟩ := counted_cons.mp hcount
    exact ih hrest (by simpa using Packs.opened hb (hle j))
  | case5 j b rest hb p hroom ih =>
    obtain ⟨rfl, hrest⟩ := counted_cons.mp hcount
    exact ih hrest (by simpa using (hcur p rfl).joined hroom)
  | case6 j b rest hb p _ ih =>
    obtain ⟨rfl, hrest⟩ := counted_cons.mp hcount
    exact List.forall_mem_cons.mpr ⟨hcur p rfl, ih hrest (by simpa using Packs.opened hb (hle j))⟩

/-- The blocks of the phases, in order, are those of the open phase and then every block with dots. -/
theorem splitFrom_blocks (xs : List (Nat × Nat)) (cur : Option Phase) :
    (splitFrom dMax xs cur).flatMap Phase.blocks =
      cur.toList.flatMap Phase.blocks ++ (xs.filter fun x => x.2 != 0).map Prod.fst := by
  fun_induction splitFrom dMax xs cur with
  | case1 => rfl
  | case2 p => simp
  | case3 _ _ _ ih => simpa using ih
  | case4 j b rest hb ih => simp [ih, hb]
  | case5 j b rest hb p _ ih => simp [ih, hb]
  | case6 j b rest hb p _ ih => simp [ih, hb]

/-- The first phase of the splitter goes on from the open one. -/
theorem splitFrom_head_blocks {xs : List (Nat × Nat)} {p : Phase} (hp : p.blocks ≠ []) :
    ∀ q ∈ (splitFrom dMax xs (some p)).head?, q.blocks.head? = p.blocks.head? := by
  induction xs generalizing p with
  | nil => simp [splitFrom]
  | cons x rest ih =>
    rw [splitFrom]
    split
    · exact ih hp
    · split
      · simpa [List.head?_append_of_ne_nil _ hp] using ih (p := ⟨p.blocks ++ [x.1], p.dots + x.2⟩) (by simp)
      · simp

/-- A phase has no room for the block that opens the next one. -/
theorem splitFrom_isChain {xs : List (Nat × Nat)} {cur : Option Phase} (hcount : Counted c xs) :
    (splitFrom dMax xs cur).IsChain (NoRoom dMax c) := by
  fun_induction splitFrom dMax xs cur with
  | case1 => exact .nil
  | case2 p => exact .singleton p
  | case3 _ _ _ ih => exact ih (counted_cons.mp hcount).2
  | case4 _ _ _ _ ih => exact ih (counted_cons.mp hcount).2
  | case5 _ _ _ _ _ _ ih => exact ih (counted_cons.mp hcount).2
  | case6 j b rest _ p hfull ih =>
    obtain ⟨rfl, hrest⟩ := counted_cons.mp hcount
    refine List.isChain_cons.mpr ⟨fun q hq i hi => ?_, ih hrest⟩
    obtain rfl : j = i := by simpa [splitFrom_head_blocks (List.cons_ne_nil j []) q hq] using hi
    exact Nat.lt_of_not_le hfull

/-- A phase costs its dots over 16, rounded up: 1 to 24 for 1 to 384 dots. -/
theorem Packs.cost_bounds {p : Phase} (hp : Packs dMax c p) (hmax : dMax ≤ 384) :
    16 * p.cost < p.dots + 16 ∧ p.dots ≤ 16 * p.cost ∧ 1 ≤ p.cost ∧ p.cost ≤ 24 := by
  have hpos := hp.dots_pos
  have hle := hp.dots_le
  unfold Phase.cost
  omega

end

/-! ## The phases of a row of counts -/

section
variable {dMax : Nat} {counts : List Nat}

theorem zip_range_counts (counts : List Nat) :
    (List.range counts.length).zip counts = (List.range counts.length).map fun j => (j, counts.getD j 0) := by
  refine List.ext_getElem (by simp) fun j _ hj => ?_
  have hlt : j < counts.length := by simpa using hj
  simp [List.getElem?_eq_getElem hlt]

theorem counted_zip_range : Counted (fun j => counts.getD j 0) ((List.range counts.length).zip counts) := by
  rw [Counted, zip_range_counts, List.forall_mem_map]
  exact fun _ _ => rfl

theorem splitPhases_packs (hle : ∀ b ∈ counts, b ≤ dMax) :
    ∀ p ∈ splitPhases dMax counts, Packs dMax (fun j => counts.getD j 0) p := by
  refine splitFrom_packs counted_zip_range (fun j => ?_) (by simp)
  by_cases hj : j < counts.length
  · simpa [hj] using hle _ (List.getElem_mem hj)
  · simp [hj]

/-- The phases take, in order, the blocks with dots. -/
theorem splitPhases_blocks (dMax : Nat) (counts : List Nat) :
    (splitPhases dMax counts).flatMap Phase.blocks =
      (List.range counts.length).filter fun j => counts.getD j 0 != 0 := by
  rw [splitPhases, splitFrom_blocks, zip_range_counts, List.filter_map, List.map_map]
  exact List.map_id _

theorem splitPhases_noRoom {k : Nat} {p q : Phase} (hp : (splitPhases dMax counts)[k]? = some p)
    (hq : (splitPhases dMax counts)[k + 1]? = some q) : NoRoom dMax (fun j => counts.getD j 0) p q := by
  obtain ⟨_, rfl⟩ := List.getElem?_eq_some_iff.mp hp
  obtain ⟨hlt, rfl⟩ := List.getElem?_eq_some_iff.mp hq
  exact List.isChain_iff_getElem.mp (splitFrom_isChain counted_zip_range) k hlt

/-- No phase is empty, so there are no more phases than blocks with dots. -/
theorem length_splitPhases_le (hle : ∀ b ∈ counts, b ≤ dMax) :
    (splitPhases dMax counts).length ≤ ((List.range counts.length).filter fun j => counts.getD j 0 != 0).length := by
  rw [← splitPhases_blocks dMax, List.length_flatMap]
  have hsum := List.length_le_sum_of_one_le ((splitPhases dMax counts).map fun p => p.blocks.length)
    (List.forall_mem_map.mpr fun p hp => List.length_pos_of_ne_nil (splitPhases_packs hle p hp).blocks_ne)
  simpa using hsum

theorem splitPhases_eq_nil (hle : ∀ b ∈ counts, b ≤ dMax) (hsum : counts.sum = 0) : splitPhases dMax counts = [] := by
  have hzero : ∀ j < counts.length, counts.getD j 0 = 0 := fun j hj => by
    simpa [hj] using List.sum_eq_zero_iff.mp hsum _ (List.getElem_mem hj)
  have hnone : (List.range counts.length).filter (fun j => counts.getD j 0 != 0) = [] :=
    List.filter_eq_nil_iff.mpr fun j hj => by rw [hzero j (List.mem_range.mp hj)]; decide
  have hlen := length_splitPhases_le hle
  rw [hnone] at hlen
  exact List.eq_nil_of_length_eq_zero (Nat.le_zero.mp hlen)

end

/-! ## The row begins (R130, R132) -/

theorem startRow_blank {l : PrintLine} {s : State}
    (h : splitPhases s.lli.params.printDensity (blockCounts (rowDots s.tbs.font.active l.glyphRow l.text)) = []) :
    startRow l s = setPrinter (.printing [] (.stepping (s.clock + 1000))) s := by
  rw [startRow, h]

theorem startRow_inked {l : PrintLine} {s : State} {p : Phase} {rest : List Phase}
    (h : splitPhases s.lli.params.printDensity (blockCounts (rowDots s.tbs.font.active l.glyphRow l.text)) = p :: rest) :
    startRow l s = placePhase true p.cost (setPrinter (.printing rest (.waiting p)) s) := by
  rw [startRow, h]

/-- A printer that asks for a phase goes on waiting, or strobes it. -/
theorem placePhase_pen_state (first : Bool) (cost : Nat) (s : State) :
    (placePhase first cost s).pen.state = s.pen.state ∨
    (placePhase first cost s).pen.state = s.pen.state.strobe s.clock := by
  rcases examine_cases { s with pbu := { s.pbu with phaseReq := some ⟨first, cost, s.clock⟩ } } with
    ⟨_, _, e⟩ | ⟨_, _, _, e⟩ | e <;> rw [placePhase, e]
  · exact .inl rfl
  · exact .inr rfl
  · exact .inl rfl

/-- Settles O45: the phases of six counts, and the two ways in which a row begins. -/
theorem phaseSplitterPacksBlocksInOrder : Obligations.PhaseSplitterPacksBlocksInOrder := by
  unfold Obligations.PhaseSplitterPacksBlocksInOrder
  refine ⟨fun dMax counts hmin hmax hsix hcounts => ?_, fun l s h => ?_, fun l s p rest h => ?_⟩
  · have hle : ∀ b ∈ counts, b ≤ dMax := fun b hb => (hcounts b hb).trans hmin
    refine ⟨hsix ▸ splitPhases_blocks dMax counts, fun p hp => ?_, fun _ _ _ => splitPhases_noRoom, ?_,
      splitPhases_eq_nil hle⟩
    · have hpacks := splitPhases_packs hle p hp
      exact ⟨hpacks.blocks_ne, hpacks.dots_eq, hpacks.dots_le, hpacks.cost_bounds hmax⟩
    · calc (splitPhases dMax counts).length
        _ ≤ _ := length_splitPhases_le hle
        _ ≤ (List.range counts.length).length := List.length_filter_le _ _
        _ = 6 := by rw [List.length_range, hsix]
  · rw [startRow_blank h, setPrinter_pen_state]
  · rw [startRow_inked h]
    exact placePhase_pen_state true p.cost (setPrinter (.printing rest (.waiting p)) s)

end Sys2Proof.Machine
end

section
/-! Proofs about loaded tables: a load given up (R177 to R181), and TABLE_CANCEL (R181). -/

namespace Sys2Proof.Machine

open Sys2Proof

/-! ## The banks of a table (R173) -/

section
variable {β : Type} {n m : TableName} {t : Tbs} {f : (α : Type) → TableBank α → TableBank α}
  {g : (α : Type) → TableBank α → β}

theorem Tbs.look_edit_same : (t.edit n f).look n g = t.look n fun α b => g α (f α b) := by
  cases n <;> rfl

theorem Tbs.look_edit_of_kept (hg : ∀ (α : Type) (b : TableBank α), g α (f α b) = g α b) :
    (t.edit n f).look m g = t.look m g := by
  cases n <;> cases m <;> simp [Tbs.look, Tbs.edit, hg]

theorem Tbs.edit_session : (t.edit n f).session = t.session := by
  cases n <;> rfl

end

/-- The active banks and the generations are read from the table store alone. -/
theorem State.sameActive_of_tbs {s t w : State} (h : s.sameActive w) (ht : t.tbs = w.tbs) : s.sameActive t := by
  unfold State.sameActive at *
  rwa [ht]

/-! ## A load given up (R177 to R181) -/

theorem withTables_works (b : Tbs) (s : State) : Works [.tables] [] s { s with tbs := b } :=
  Works.of rfl rfl rfl rfl fun p hp => by
    cases p with
    | tables => exact absurd (List.mem_singleton_self _) hp
    | _ => rfl

theorem giveUpLoad_tbs (n : TableName) (r : TableResult) (s : State) :
    (giveUpLoad n r s).tbs = s.tbs.edit n fun _ b => b.clearLoad .empty (some r) := rfl

theorem giveUpLoad_session (n : TableName) (r : TableResult) (s : State) :
    (giveUpLoad n r s).tbs.session = s.tbs.session := Tbs.edit_session

/-- The load bank alone is cleared: what is active, and its generation, stay. -/
theorem giveUpLoad_sameActive (n : TableName) (r : TableResult) (s : State) : s.sameActive (giveUpLoad n r s) := by
  have hgen : ∀ m, (giveUpLoad n r s).tbs.generation m = s.tbs.generation m := fun m =>
    Tbs.look_edit_of_kept fun _ _ => rfl
  cases n <;> exact ⟨rfl, rfl, rfl, rfl, rfl, hgen⟩

/-- From `s` to `t` the load of a table has been given up with a result, and TABLE stands for it. -/
structure GivenUp (n : TableName) (r : TableResult) (s t : State) : Prop where
  works : Works [.tables] [13] s t
  loadState : t.tbs.loadState n = .empty
  noEntries : (t.tbs.look n fun _ b => b.load.length) = 0
  sameActive : s.sameActive t
  standing : Standing t (.table n (s.tbs.generation n) r)

theorem giveUpLoad_givenUp (n : TableName) (r : TableResult) (s : State) : GivenUp n r s (giveUpLoad n r s) where
  works := ((withTables_works _ s).mono (fun _ => id) (List.forall_mem_nil _)).raised List.mem_cons_self
  loadState := by
    rw [giveUpLoad_tbs, Tbs.loadState, Tbs.look_edit_same]
    cases n <;> rfl
  noEntries := by
    rw [giveUpLoad_tbs, Tbs.look_edit_same]
    cases n <;> rfl
  sameActive := giveUpLoad_sameActive n r s
  standing := standing_raise _ _

theorem GivenUp.closeSession {n : TableName} {r : TableResult} {s t : State} (h : GivenUp n r s t) :
    GivenUp n r s (closeSession t) where
  works := h.works.trans ((withTables_works _ t).mono (fun _ => id) (List.forall_mem_nil _))
  loadState := by cases n <;> exact h.loadState
  noEntries := by cases n <;> exact h.noEntries
  sameActive := h.sameActive
  standing := h.standing.of_notices rfl

/-- A request that gives up a load, at the router: its response and the end of the event leave the tables as they are, and
TABLE known. -/
theorem serves_of_givenUp {i : Instr} {tag : Byte} {h : State → State × Reply} {s : State} {v : Verdict} {n : TableName}
    {r : TableResult} {session : State → Option Session} (he : exec i s = request i tag h s)
    (hu : ∀ u, AtRouter i s u →
      (h u).2 = ⟨v, []⟩ ∧ GivenUp n r u (h u).1 ∧ (h u).1.tbs.session = session u) :
    Serves i tag s v (fun _ => []) [.tables] [13] fun u t =>
      t.tbs.loadState n = .empty ∧ (t.tbs.look n fun _ b => b.load.length) = 0 ∧ t.tbs.session = session u ∧
      u.sameActive t ∧ Notified t (.table n (u.tbs.generation n) r) := by
  refine serves_of he fun u hr => ?_
  obtain ⟨hreply, hgiven, hsession⟩ := hu u hr
  obtain ⟨_, _, _, hparts, _⟩ := hgiven.works
  have hwch : (h u).1.wch = u.wch := hparts .weighing (by decide)
  have htbs : (finish s (respond ⟨tag, v, [], false⟩ (h u).1)).tbs = (h u).1.tbs := finish_tbs _ _
  refine ⟨hreply, hgiven.works, .inl (by rw [hwch]), ?_, ?_, ?_, ?_, ?_⟩
  · rw [htbs, hgiven.loadState]
  · rw [htbs, hgiven.noEntries]
  · rw [htbs, hsession]
  · exact State.sameActive_of_tbs hgiven.sameActive htbs
  · exact (hgiven.standing.of_notices (respond_lli_notices _ _)).finish s (by simp [Notice.kind])

/-! ## TABLE_CANCEL (R181) -/

theorem AtRouter.tbs {i : Instr} {s u : State} (h : AtRouter i s u) : u.tbs = s.tbs := by
  obtain ⟨q, rfl⟩ := h.eq
  rfl

theorem exec_tableCancel (tag : Byte) (name : List Byte) (s : State) :
    exec (.tableCancel tag name) s = request (.tableCancel tag name) tag (tableCancel name) s := rfl

theorem closeSessionOf_of_serving {n : TableName} {s : State} {x : Session} (hs : s.tbs.session = some x)
    (hx : x.table = n) : closeSessionOf n s = closeSession s := by
  simp [closeSessionOf, hs, hx]

theorem tableCancel_unknown {name : List Byte} (h : tableNamed name = none) (s : State) :
    tableCancel name s = refuse .range s := by
  simp only [tableCancel, h]

section
variable {name : List Byte} {n : TableName} {s : State} (hn : tableNamed name = some n)
include hn

theorem tableCancel_loading {x : Session} (hl : s.tbs.loadState n = .loading) (hs : s.tbs.session = some x)
    (hx : x.table = n) : tableCancel name s = okay [] (closeSession (giveUpLoad n .cancelled s)) := by
  have hserving : (giveUpLoad n .cancelled s).tbs.session = some x := (giveUpLoad_session n _ s).trans hs
  simp only [tableCancel, hn, hl, closeSessionOf_of_serving hserving hx]

theorem tableCancel_pending (hl : s.tbs.loadState n = .pending) :
    tableCancel name s = okay [] (giveUpLoad n .cancelled s) := by
  simp only [tableCancel, hn, hl]

theorem tableCancel_empty (hl : s.tbs.loadState n = .empty) : tableCancel name s = refuse .state s := by
  simp only [tableCancel, hn, hl]

end

/-- Settles O55: the unknown name, then each state of the load bank. -/
theorem tableCancelGivesUpTheLoad : Obligations.TableCancelGivesUpTheLoad := by
  unfold Obligations.TableCancelGivesUpTheLoad
  refine fun tag name s => ⟨fun hn => ?_, fun n hn => ⟨fun hl ⟨x, hs, hx⟩ => ?_, fun hl => ?_, fun hl => ?_⟩⟩
  · exact refuses_of (exec_tableCancel tag name s) fun u _ => tableCancel_unknown hn u
  · refine serves_of_givenUp (exec_tableCancel tag name s) fun u hu => ?_
    rw [tableCancel_loading hn (hu.tbs ▸ hl) (hu.tbs ▸ hs) hx]
    exact ⟨rfl, (giveUpLoad_givenUp n _ u).closeSession, rfl⟩
  · refine serves_of_givenUp (exec_tableCancel tag name s) fun u hu => ?_
    rw [tableCancel_pending hn (hu.tbs ▸ hl)]
    exact ⟨rfl, giveUpLoad_givenUp n _ u, giveUpLoad_session n _ u⟩
  · exact refuses_of (exec_tableCancel tag name s) fun u hu => tableCancel_empty hn (hu.tbs ▸ hl)

end Sys2Proof.Machine
end

section
/-! Proofs about the invariants: what each shared operation keeps of the capacities and ranges of the block. -/

namespace Sys2Proof.Machine

open Sys2Proof

/-! ## The invariant with the responses that wait

A block's work leaves the responses alone, so that the router's answer finds the room it tested for (R193). -/

/-- The invariants hold, and the responses `R` wait. -/
def Sound (R : List Response) (s : State) : Prop := Kept s ∧ s.lli.responses = R

/-- A sale of the open slot within its limits (R65, R73, R77). -/
def OpenFits (o : Sale) : Prop :=
  o.lines.length ≤ 200 ∧ o.referrals.length ≤ 4 ∧ (o.state = .authWait → o.lines.length < 200)

theorem Kept.sound {s : State} (h : Kept s) : Sound s.lli.responses s := ⟨h, rfl⟩

section
variable {R : List Response} {s : State}

theorem Sound.kept (h : Sound R s) : Kept s := h.1

theorem Sound.budget (h : Sound R s) : BudgetKept s := h.1.1

theorem Sound.link (h : Sound R s) : LinkKept s := h.1.2.1

theorem Sound.paper (h : Sound R s) : PaperKept s := h.1.2.2.1

theorem Sound.sales (h : Sound R s) : SalesKept s := h.1.2.2.2.1

theorem Sound.params (h : Sound R s) : ParamsKept s := h.1.2.2.2.2.1

theorem Sound.channel (h : Sound R s) : ChannelKept s := h.1.2.2.2.2.2

theorem Sound.notices (h : Sound R s) : ascending s.lli.notices := by
  obtain ⟨_, _, _, _, _, hn⟩ := h.link
  exact hn

/-- What the invariants say of one block is asked again when that block changes. -/
theorem Sound.with_pbu (h : Sound R s) {b : Pbu} (hb : BudgetKept { s with pbu := b }) : Sound R { s with pbu := b } :=
  ⟨⟨hb, h.1.2⟩, h.2⟩

theorem Sound.with_pen (h : Sound R s) {p : Pen} (hp : PaperKept { s with pen := p }) : Sound R { s with pen := p } :=
  ⟨⟨h.budget, h.link, hp, h.1.2.2.2⟩, h.2⟩

theorem Sound.with_sru (h : Sound R s) {u : Sru} (hu : SalesKept { s with sru := u }) : Sound R { s with sru := u } :=
  ⟨⟨h.budget, h.link, h.paper, hu, h.1.2.2.2.2⟩, h.2⟩

theorem Sound.with_wch (h : Sound R s) {w : Wch} (hw : ChannelKept { s with wch := w }) : Sound R { s with wch := w } :=
  ⟨⟨h.budget, h.link, h.paper, h.sales, h.params, hw⟩, h.2⟩

theorem Sound.with_acp (h : Sound R s) {a : Acp} (ha : LinkKept { s with acp := a }) : Sound R { s with acp := a } :=
  ⟨⟨h.budget, ha, h.1.2.2⟩, h.2⟩

theorem Sound.with_lli (h : Sound R s) {l : Lli} (hl : LinkKept { s with lli := l }) (hp : l.params = s.lli.params)
    (hr : l.responses = R) : Sound R { s with lli := l } := by
  refine ⟨⟨h.budget, hl, h.paper, h.sales, ?_, h.channel⟩, hr⟩
  have := h.params
  unfold ParamsKept at *
  rw [← hp] at this
  exact this

/-- The channel where it is not in FAULT. -/
theorem Sound.with_live_wch (h : Sound R s) {w : Wch} (hring : w.ring.length ≤ 64) (hcount : w.count ≤ 64)
    (hstab : w.stabCount ≤ 200) (hlive : w.state ≠ .fault) : Sound R { s with wch := w } :=
  h.with_wch ⟨hring, hcount, hstab, fun hf => absurd hf hlive⟩

/-! ## The lane link -/

theorem Sound.raise (h : Sound R s) (n : Notice) : Sound R (raise n s) := by
  obtain ⟨hreq, hres, hups, hvisit, hqueue, hn⟩ := h.link
  exact h.with_lli ⟨hreq, hres, hups, hvisit, hqueue, ascending_insertNotice n _ hn⟩ rfl h.2

theorem Sound.raiseWeight (h : Sound R s) : Sound R (raiseWeight s) := h.raise _

theorem Sound.linkError (h : Sound R s) : Sound R (linkError s) := h

theorem Sound.reach (h : Sound R s) (due : Nat) : Sound R (reach due s) := h

end

/-- A notice left out of an ascending list leaves it ascending. -/
theorem ascending_iff_pairwise (l : List Notice) : ascending l ↔ l.Pairwise fun m n => m.kind < n.kind := by
  induction l with
  | nil => simp [ascending]
  | cons m ms ih =>
    cases ms with
    | nil => simp [ascending]
    | cons n ns =>
      rw [ascending, ih]
      simp only [List.pairwise_cons, List.mem_cons, forall_eq_or_imp]
      exact ⟨fun ⟨hmn, hn, hns⟩ => ⟨⟨hmn, fun a ha => hmn.trans (hn a ha)⟩, hn, hns⟩,
        fun ⟨⟨hmn, _⟩, hn, hns⟩ => ⟨hmn, hn, hns⟩⟩

theorem ascending_filter {l : List Notice} (p : Notice → Bool) (h : ascending l) : ascending (l.filter p) := by
  rw [ascending_iff_pairwise] at *
  exact h.filter p

theorem Kept.pump {s : State} (h : Kept s) : Kept (pump s) := by
  obtain ⟨hb, ⟨hreq, hres, hups, hvisit, hqueue, hn⟩, hrest⟩ := h
  rcases pump_cases s with e | ⟨_, _, ⟨r, rs, hr, e⟩ | ⟨n, hr, hf, e⟩ | ⟨f, fs, hr, hf, e⟩⟩ <;> rw [e]
  · exact ⟨hb, ⟨hreq, hres, hups, hvisit, hqueue, hn⟩, hrest⟩
  · rw [hr, List.length_cons] at hres
    exact ⟨hb, ⟨hreq, by show rs.length ≤ 8; omega, hups, hvisit, hqueue, hn⟩, hrest⟩
  · exact ⟨hb, ⟨hreq, hres, hups, hvisit, hqueue, ascending_filter _ hn⟩, hrest⟩
  · rw [hf, List.length_cons] at hups hvisit
    refine ⟨hb, ⟨hreq, hres, ?_, fun hv => ?_, hqueue, hn⟩, hrest⟩
    · show fs.length ≤ 24
      omega
    · have := hvisit hv
      show fs.length < 24
      omega

theorem Kept.finish {s : State} (a : State) (h : Kept s) : Kept (finish a s) := by
  rcases finish_eq a s with e | e <;> rw [e]
  · exact h.pump
  · exact h.sound.raiseWeight.kept.pump

theorem Kept.event {f : State → State} {s t : State} (h : Kept (f s)) (ht : event f s = .next t) : Kept t := by
  cases ht
  exact h.finish s

/-! ## The router -/

theorem Kept.respond {s : State} (h : Kept s) (r : Response) (hroom : s.lli.responses.length < 8) :
    Kept (respond r s) := by
  obtain ⟨hb, ⟨hreq, hres, hrest'⟩, hrest⟩ := h
  refine ⟨hb, ⟨hreq, ?_, hrest'⟩, hrest⟩
  show (s.lli.responses ++ [r]).length ≤ 8
  simp only [List.length_append, List.length_singleton]
  omega

theorem Kept.with_requests {s : State} (h : Kept s) {q : List Instr} (hq : q.length ≤ 8) :
    Kept { s with lli := { s.lli with requests := q } } := by
  obtain ⟨hb, ⟨_, hlink⟩, hrest⟩ := h
  exact ⟨hb, ⟨hq, hlink⟩, hrest⟩

theorem Kept.arriveRequest {s : State} (h : Kept s) (i : Instr) (tag : Byte) : Kept (arriveRequest i tag s) := by
  unfold Machine.arriveRequest
  split
  · exact h.with_requests (by simp only [List.length_append, List.length_singleton]; omega)
  · split
    · exact h.respond _ ‹_›
    · exact h

theorem Kept.answer {h : State → State × Reply} {s : State} (hh : ∀ R u, Sound R u → Sound R (h u).1) (hs : Kept s)
    (tag : Byte) (b : Bool) (hroom : s.lli.responses.length < 8) : Kept (answer tag b h s) := by
  obtain ⟨hk, hr⟩ := hh _ s hs.sound
  exact hk.respond _ (by rw [hr]; exact hroom)

theorem routerOpen_room {s : State} (h : routerOpen s = true) : s.lli.responses.length < 8 := by
  simp only [routerOpen, Bool.and_eq_true, decide_eq_true_eq] at h
  exact h.2

theorem Kept.route {h : State → State × Reply} {s : State} (hh : ∀ R u, Sound R u → Sound R (h u).1) (hs : Kept s)
    (i : Instr) (tag : Byte) (b : Bool) : Kept (route i tag b h s) := by
  unfold Machine.route
  split
  · split
    · exact Kept.answer hh hs tag b (routerOpen_room ‹_›)
    · exact hs.arriveRequest i tag
  · rename_i r rest hq
    split
    · split
      · have hreq : s.lli.requests.length ≤ 8 := hs.2.1.1
        exact Kept.answer hh (hs.with_requests (q := s.lli.requests.tail) (by rw [List.length_tail]; omega)) tag b
          (routerOpen_room ‹_›)
      · exact hs
    · exact hs.arriveRequest i tag

theorem Kept.request {i : Instr} {tag : Byte} {h : State → State × Reply} {s t : State} (hs : Kept s)
    (hh : ∀ R u, Sound R u → Sound R (h u).1) (ht : request i tag h s = .next t) : Kept t := by
  cases ht
  exact (Kept.route hh hs i tag false).finish s

section
variable {R : List Response} {s : State}

/-! ## The pulse budget and the till -/

/-- The window and the average are no part of the channel's ranges. -/
theorem ChannelKept.of_window {t : State} (h : ChannelKept s) (hw : WindowOnly s t) : ChannelKept t := by
  obtain ⟨hring, hcount, hstab, hfault⟩ := h
  obtain ⟨he, hcal⟩ := hw
  unfold ChannelKept
  rw [he]
  refine ⟨hring, hcount, hstab, fun hf => ?_⟩
  obtain ⟨htare, htrack, hwatch, hc, hcap⟩ := hfault hf
  exact ⟨htare, htrack, hwatch, hcal hc, hcap⟩

theorem Sound.examine (h : Sound R s) : Sound R (examine s) := by
  have hbudget := examine_budget s h.budget
  have hchannel := h.channel.of_window (examine_window s)
  rcases examine_cases s with ⟨_, _, e⟩ | ⟨r, _, _, e⟩ | e <;> rw [e] at hbudget hchannel ⊢
  · exact ⟨⟨hbudget, h.link, h.paper, h.sales, h.params, hchannel⟩, h.2⟩
  · exact ⟨⟨hbudget, h.link, h.paper, h.sales, h.params, hchannel⟩, h.2⟩
  · exact h

theorem Sound.placePhase (h : Sound R s) (first : Bool) (cost : Nat) : Sound R (placePhase first cost s) :=
  Sound.examine (h.with_pbu h.budget)

theorem Sound.placeSolenoid (h : Sound R s) : Sound R (placeSolenoid s) := Sound.examine (h.with_pbu h.budget)

theorem Sound.withdrawSolenoid (h : Sound R s) : Sound R (withdrawSolenoid s) := Sound.examine (h.with_pbu h.budget)

theorem Sound.reportRowEnd (h : Sound R s) : Sound R (reportRowEnd s) := Sound.examine (h.with_pbu h.budget)

theorem Sound.reportPulseEnd (h : Sound R s) : Sound R (reportPulseEnd s) := by
  refine Sound.examine ⟨⟨h.budget, h.link, h.paper, h.sales, h.params, ?_⟩, h.2⟩
  unfold ChannelKept Wch.setClosing
  have := h.channel
  dsimp only
  split <;> exact this

theorem Sound.towardGrant (h : Sound R s) : Sound R (towardGrant s) := by
  unfold Machine.towardGrant
  split
  · exact h
  · exact Sound.placeSolenoid h

theorem Sound.issueAuth (h : Sound R s) (a : Auth) : Sound R (issueAuth a s) := by
  unfold Machine.issueAuth
  split
  · exact Sound.towardGrant h
  · exact h

theorem Sound.holdImposed (h : Sound R s) : Sound R (holdImposed s) := by
  unfold Machine.holdImposed
  split
  · exact Sound.withdrawSolenoid h
  · exact h

theorem Sound.holdLifted (h : Sound R s) : Sound R (holdLifted s) := by
  unfold Machine.holdLifted
  split
  · exact h.towardGrant
  · exact h

theorem Sound.raiseDrawer (h : Sound R s) (a : Option Auth) : Sound R (raiseDrawer a s) := h.raise _

theorem Sound.enterOpened (h : Sound R s) (u : Bool) : Sound R (enterOpened u s) :=
  Sound.raise (s := { s with tlc := _ }) h _

/-! ## The tables and the composer -/

theorem Sound.trySwap (h : Sound R s) (n : TableName) : Sound R (trySwap n s) := by
  unfold Machine.trySwap
  split
  · exact Sound.raise h _
  · exact h

theorem Sound.swapSlotTables (h : Sound R s) : Sound R (swapSlotTables s) := (h.trySwap _).trySwap _

theorem Sound.swapPrintTables (h : Sound R s) : Sound R (swapPrintTables s) := (h.trySwap _).trySwap _

/-- What the composer writes is no part of a sale's limits. -/
theorem OpenFits.of_unprinted {o p : Sale} (h : OpenFits o) (hp : p.unprinted = o.unprinted) : OpenFits p := by
  have hlines : p.lines.length = o.lines.length := by
    simpa [Sale.unprinted] using congrArg (fun x : Sale => x.lines.length) hp
  have hrefs : p.unprinted.referrals = o.unprinted.referrals := by rw [hp]
  have hstate : p.unprinted.state = o.unprinted.state := by rw [hp]
  simp only [Sale.unprinted] at hrefs hstate
  unfold OpenFits
  rw [hlines, hrefs, hstate]
  exact h

end

theorem SalesKept.of_unprinted {s t : State} (h : SalesKept s) (e : t.sru.unprinted = s.sru.unprinted) : SalesKept t := by
  obtain ⟨hstack, hopen, hstacked, hclosing⟩ := h
  have estack : t.sru.unprinted.stack = s.sru.unprinted.stack := by rw [e]
  have eopen : t.sru.unprinted.openSlot = s.sru.unprinted.openSlot := by rw [e]
  have eclosing : t.sru.unprinted.closing = s.sru.unprinted.closing := by rw [e]
  simp only [Sru.unprinted] at estack eopen eclosing
  have ereserved : t.sru.reserved = s.sru.reserved := by
    have key : ∀ x : Option Sale, (x.any fun o => o.closingKind == some .suspended) =
        ((x.map Sale.unprinted).any fun o => o.closingKind == some .suspended) := fun x => by cases x <;> rfl
    unfold Sru.reserved
    rw [key, eclosing, ← key]
  refine ⟨by rw [estack, ereserved]; exact hstack, fun p hp => ?_, fun p hp => hstacked p (estack ▸ hp), fun p hp => ?_⟩
  · rw [Option.mem_def] at hp
    rw [hp, Option.map_some] at eopen
    obtain ⟨o, ho, hu⟩ := Option.map_eq_some_iff.mp eopen.symm
    exact OpenFits.of_unprinted (hopen o ho) hu.symm
  · rw [Option.mem_def] at hp
    rw [hp, Option.map_some] at eclosing
    obtain ⟨o, ho, hu⟩ := Option.map_eq_some_iff.mp eclosing.symm
    have hlines : p.lines.length = o.lines.length := by
      simpa [Sale.unprinted] using congrArg (fun x : Sale => x.lines.length) hu.symm
    have hrefs : p.unprinted.referrals = o.unprinted.referrals := by rw [hu]
    simp only [Sale.unprinted] at hrefs
    rw [hlines, hrefs]
    exact hclosing o ho

/-- Each print line that the composer takes fits the room that is left (R125). -/
theorem length_composeLines_le (d fuel : Nat) (o : Sale) (q : List QueueEntry) (h : q.length ≤ 48) :
    (composeLines d fuel o q).2.length ≤ 48 := by
  induction fuel generalizing o q with
  | zero => exact h
  | succ fuel ih =>
    unfold composeLines
    split
    · exact h
    · split
      · exact h
      · split
        · rename_i hroom
          exact ih _ _ (by rw [List.length_append]; exact hroom)
        · exact h

theorem length_composeHeader_le {headers : List HeaderEntry} {c : Composing} (h : c.queue.length ≤ 48) :
    (composeHeader headers c).queue.length ≤ 48 := by
  unfold composeHeader
  split
  · exact h
  · split
    · rename_i hroom
      show (c.queue ++ _).length ≤ 48
      rw [List.length_append]
      exact hroom
    · exact h

theorem length_composeSaleLines_le {d : Nat} {c : Composing} (h : c.queue.length ≤ 48) :
    (composeSaleLines d c).queue.length ≤ 48 := by
  unfold composeSaleLines
  split
  · exact length_composeLines_le _ _ _ _ h
  · exact h

theorem length_composeTail_le {headers : List HeaderEntry} {d : Nat} {c : Composing} (h : c.queue.length ≤ 48) :
    (composeTail headers d c).queue.length ≤ 48 := by
  unfold composeTail
  split
  · exact h
  · split
    · rename_i hroom
      show (c.queue ++ _).length ≤ 48
      rw [List.length_append]
      exact hroom
    · exact h

section
variable {R : List Response} {s : State}

theorem Sound.composerFill (h : Sound R s) : Sound R (composerFill s) := by
  have hsales := h.sales.of_unprinted (composerFill_unprinted s)
  obtain ⟨hqueue, hfeed, hsince⟩ := h.paper
  have hpaper : PaperKept (Machine.composerFill s) := by
    unfold Machine.composerFill
    split
    · exact ⟨hqueue, hfeed, hsince⟩
    · exact ⟨length_composeTail_le (length_composeSaleLines_le (length_composeHeader_le hqueue)), hfeed, hsince⟩
  revert hpaper hsales
  unfold Machine.composerFill
  split <;> intro hsales hpaper
  · exact ⟨⟨h.budget, h.link, hpaper, hsales, h.params, h.channel⟩, h.2⟩
  · exact ⟨⟨h.budget, h.link, hpaper, hsales, h.params, h.channel⟩, h.2⟩

/-! ## The printer -/

theorem Sound.setPrinter (h : Sound R s) (st : PrinterState) : Sound R (setPrinter st s) := h

theorem Sound.raisePrinter (h : Sound R s) : Sound R (raisePrinter s) := h.raise _

theorem Sound.enterHalt (h : Sound R s) (r : HaltReason) : Sound R (enterHalt r s) :=
  (Sound.raisePrinter (h.setPrinter _)).swapPrintTables

theorem length_restartHead (q : List QueueEntry) : (restartHead q).length = q.length := by
  unfold restartHead
  split <;> rfl

theorem Sound.actMark (h : Sound R s) : Sound R (actMark s) := by
  obtain ⟨hqueue, hfeed, hsince⟩ := h.paper
  have hcleared : Sound R
      { s with pen := { s.pen with paperMark := false, coverMark := false, queue := restartHead s.pen.queue } } :=
    h.with_pen ⟨(length_restartHead _).trans_le hqueue, hfeed, hsince⟩
  exact hcleared.enterHalt _

theorem Sound.startRow (h : Sound R s) (p : PrintLine) : Sound R (startRow p s) := by
  unfold Machine.startRow
  split
  · exact h
  · exact Sound.placePhase (h.setPrinter _) _ _

theorem Sound.startCut (h : Sound R s) : Sound R (startCut s) := h

theorem Sound.haltTest {t : State} (h : Sound R s) (ht : haltTest s = some t) : Sound R t := by
  unfold Machine.haltTest at ht
  split at ht
  · cases ht; exact h.actMark
  · split at ht
    · cases ht; exact h.enterHalt _
    · cases ht

theorem Sound.takeFeed (h : Sound R s) {rows : Nat} {q : List QueueEntry} (hq : q.length ≤ 48) :
    Sound R (takeFeed rows q s) :=
  h.with_pen ⟨hq, Nat.min_le_left _ _, h.paper.2.2⟩

theorem Sound.takeCut (h : Sound R s) {q : List QueueEntry} (hq : q.length ≤ 48) : Sound R (takeCut q s) :=
  h.with_pen ⟨hq, by show 96 - s.pen.sinceGlyph ≤ 255; omega, h.paper.2.2⟩

theorem Sound.goOnFrom (fuel : Nat) (h : Sound R s) : Sound R (goOnFrom fuel s) := by
  induction fuel generalizing s with
  | zero => exact h
  | succ fuel ih =>
    have hqueue : s.pen.queue.length ≤ 48 := h.paper.1
    unfold Machine.goOnFrom
    split
    · exact h.haltTest ‹_›
    · split
      · exact h
      · split
        · exact h
        · split
          · rename_i q hq
            rw [hq, List.length_cons] at hqueue
            exact ih (h.takeFeed (by omega)).composerFill
          · rename_i q hq
            rw [hq, List.length_cons] at hqueue
            exact ih (h.takeCut (by omega)).composerFill
          · split
            · exact h
            · exact h.startRow _
          · exact Sound.swapPrintTables (h.setPrinter _)

theorem Sound.goOn (h : Sound R s) : Sound R (goOn s) := h.goOnFrom _

theorem Sound.wakePrinter (h : Sound R s) : Sound R (wakePrinter s) := by
  unfold Machine.wakePrinter
  split
  · exact h.goOn
  · exact h

theorem Sound.composerAct (h : Sound R s) : Sound R (composerAct s) := h.composerFill.wakePrinter

end

end Sys2Proof.Machine
end

section
/-! Proofs about the invariants: what the weighing channel, the sales and the accessory port keep of them. -/

namespace Sys2Proof.Machine

open Sys2Proof

section
variable {R : List Response} {s : State}

/-! ## Captures and the held read -/

theorem Sound.raiseAccessory (h : Sound R s) (c : AccCause) (unit : Nat) (r : Option BlockReason) (l : Option Nat) :
    Sound R (raiseAccessory c unit r l s) := h.raise _

/-- The accessory port with the same queue, and a visit only where one was. -/
theorem Sound.with_quiet_acp (h : Sound R s) {a : Acp} (hv : a.visit = s.acp.visit) (hq : a.queue = s.acp.queue) :
    Sound R { s with acp := a } := by
  obtain ⟨hreq, hres, hups, hvisit, hqueue, hn⟩ := h.link
  exact h.with_acp ⟨hreq, hres, hups, by rw [hv]; exact hvisit, by rw [hq]; exact hqueue, hn⟩

theorem Sound.release (h : Sound R s) (x : HeldScan) : Sound R { s with acp := s.acp.release x } :=
  h.with_quiet_acp rfl rfl

theorem Sound.discardHeld (h : Sound R s) : Sound R (discardHeld s) := by
  unfold Machine.discardHeld
  split
  · exact h
  · exact (h.release _).raiseAccessory _ _ _ _

theorem captureRefusal_running {plu : Nat} (h : captureRefusal plu s = none) : s.wch.state = .running := by
  unfold captureRefusal at h
  split at h
  · cases h
  · split at h
    · cases h
    · split at h
      · cases h
      · exact not_not.mp ‹_›

theorem Sound.beginCapture (h : Sound R s) (plu : Nat) (src : CaptureSource) (hr : s.wch.state = .running) :
    Sound R (beginCapture plu src s) := by
  obtain ⟨hring, hcount, hstab, _⟩ := h.channel
  exact h.with_live_wch hring hcount hstab (by show s.wch.state ≠ .fault; rw [hr]; decide)

theorem Sound.endCapture (h : Sound R s) (r : CaptureResult) : Sound R (endCapture r s) := by
  unfold Machine.endCapture
  split
  · exact h
  · obtain ⟨hring, hcount, hstab, hfault⟩ := h.channel
    refine Sound.raise ?_ _
    refine h.with_wch ⟨hring, hcount, hstab, fun hf => ?_⟩
    obtain ⟨htare, htrack, hwatch, hcal, hcap⟩ := hfault hf
    exact ⟨by show s.wch.tare.lapse = .none; rw [htare]; rfl, htrack, hwatch, hcal, rfl⟩

theorem Sound.startHeld (h : Sound R s) (x : HeldScan) : Sound R (startHeld x s) := by
  unfold Machine.startHeld
  split
  · rename_i hc
    have hbegun := h.beginCapture x.plu .scan (captureRefusal_running hc)
    exact Sound.raiseAccessory (hbegun.with_quiet_acp rfl rfl) _ _ _ _
  · exact h
  · exact h.discardHeld

theorem Sound.captureEmptied (h : Sound R s) : Sound R (captureEmptied s) := by
  unfold Machine.captureEmptied
  split
  · exact h
  · split
    · exact h.startHeld _
    · exact h.discardHeld

theorem Sound.finishCapture (h : Sound R s) (r : CaptureResult) : Sound R (finishCapture r s) := by
  unfold Machine.finishCapture
  split
  · exact (h.endCapture r).captureEmptied
  · exact h

theorem Sound.leftOpen (h : Sound R s) : Sound R (leftOpen s) := (h.endCapture _).discardHeld

/-! ## Restarts, FAULT and CAL -/

theorem refillState_ne_fault (c : RestartCause) : c.refillState ≠ .fault := by
  cases c <;> decide

/-- A restart puts every figure of the channel in its range, whatever stood there before (R6). -/
theorem Sound.restart (h : Sound R s) (w : Wch) (c : RestartCause) : Sound R (restart c { s with wch := w }) := by
  have hended : ∀ x : Wch, x.state ≠ .fault → x.ring.length ≤ 64 → x.count ≤ 64 → x.stabCount ≤ 200 →
      Sound R { Machine.endCapture .fault { s with wch := w } with wch := x } := by
    intro x hlive hring hcount hstab
    unfold Machine.endCapture
    split
    · exact h.with_live_wch hring hcount hstab hlive
    · exact Sound.raise (s := { s with wch := x }) (h.with_live_wch hring hcount hstab hlive) _
  have hagain := hended ((Machine.endCapture .fault { s with wch := w }).wch.restarted c
    (Machine.endCapture .fault { s with wch := w }).clock) (refillState_ne_fault c) (by simp [Wch.restarted])
    (by simp [Wch.restarted]) (by simp [Wch.restarted])
  unfold Machine.restart
  dsimp only
  split
  · exact hagain.captureEmptied
  · exact hagain

theorem Sound.endStep (h : Sound R s) (r : CalResult) : Sound R (endStep r s) := by
  unfold Machine.endStep
  split
  · exact h
  · obtain ⟨hring, hcount, hstab, hfault⟩ := h.channel
    refine Sound.raise ?_ _
    refine h.with_wch ⟨hring, hcount, hstab, fun hf => ?_⟩
    obtain ⟨htare, htrack, hwatch, hcal, hcap⟩ := hfault hf
    exact ⟨htare, htrack, hwatch, by show Option.map _ s.wch.cal = none; rw [hcal]; rfl, hcap⟩

theorem endStep_capture (r : CalResult) (s : State) : (endStep r s).wch.capture = s.wch.capture := by
  rw [endStep_wch]

theorem Sound.enterFault (h : Sound R s) (c : FaultCause) : Sound R (enterFault c s) := by
  unfold Machine.enterFault
  split
  · rename_i hf
    obtain ⟨hring, hcount, hstab, hfault⟩ := h.channel
    exact h.with_wch ⟨hring, hcount, hstab, fun _ => hfault hf⟩
  · have hended := (h.endCapture .fault).endStep .aborted
    obtain ⟨hring, hcount, hstab, _⟩ := hended.channel
    have hcapture : (Machine.endStep .aborted (Machine.endCapture .fault s)).wch.capture = none := by
      rw [endStep_capture, endCapture_capture]
    have hfaulted := hended.with_wch
      (w := (Machine.endStep .aborted (Machine.endCapture .fault s)).wch.faulted c)
      ⟨hring, hcount, hstab, fun _ => ⟨rfl, rfl, rfl, rfl, hcapture⟩⟩
    dsimp only
    refine Sound.raiseWeight ?_
    split <;> split
    · exact hfaulted.captureEmptied.holdLifted
    · exact hfaulted.holdLifted
    · exact hfaulted.captureEmptied
    · exact hfaulted

theorem Sound.leaveCal (h : Sound R s) : Sound R (leaveCal s) := ((h.endStep .aborted).restart _ _).holdLifted

/-! ## The store -/

theorem Sound.requestTotals (h : Sound R s) : Sound R (requestTotals s) := by
  unfold Machine.requestTotals
  split
  · exact h
  · split <;> exact h

theorem Sound.countSale (h : Sound R s) (n : Nat) : Sound R (countSale n s) := by
  unfold Machine.countSale
  split
  · exact h
  · exact Sound.requestTotals h
  · exact h

theorem Sound.startPending (h : Sound R s) : Sound R (startPending s) := by
  unfold Machine.startPending
  split <;> exact h

theorem Sound.nextWrite (h : Sound R s) : Sound R (nextWrite s) := by
  unfold Machine.nextWrite
  split
  · exact h.startPending
  · exact h

theorem Sound.editCal (h : Sound R s) (f : CalContext → CalContext) : Sound R (editCal f s) := by
  obtain ⟨hring, hcount, hstab, hfault⟩ := h.channel
  refine h.with_wch ⟨hring, hcount, hstab, fun hf => ?_⟩
  obtain ⟨htare, htrack, hwatch, hcal, hcap⟩ := hfault hf
  exact ⟨htare, htrack, hwatch, by show Option.map _ s.wch.cal = none; rw [hcal]; rfl, hcap⟩

theorem Sound.commitDone (h : Sound R s) : Sound R (commitDone s) := by
  have hdropped := (h.editCal fun c => { c with zero := none, span := none, ranges := none }).raise (.cal .commit .ok)
  unfold Machine.commitDone
  dsimp only
  split
  · exact hdropped.leaveCal
  · exact hdropped

theorem Sound.writeDone (h : Sound R s) (d : WriteData) : Sound R (writeDone d s) := by
  unfold Machine.writeDone
  split
  · exact h
  · exact Sound.commitDone (s := { s with sst := _ }) h
  · exact Sound.commitDone (Sound.raise (s := { s with sst := _ }) h _)

theorem Sound.writeFailed (h : Sound R s) (w : Write) : Sound R (writeFailed w s) := by
  have hfault := (Sound.raise (s := { s with sst := { s.sst with
    state := .fault, inFlight := none, pendingTotals := false } }) h (.store .fault)).enterFault .store
  unfold Machine.writeFailed
  dsimp only
  split
  · exact hfault
  · exact hfault.raise _
  · exact hfault.raise _

theorem Sound.endWrite (h : Sound R s) (how : WriteEnd) (w : Write) : Sound R (endWrite how w s) := by
  unfold Machine.endWrite
  split
  · exact h.writeDone _
  · exact Sound.writeFailed (h.reach w.due) w

/-! ## Slots -/

theorem OpenFits.of_live {o : Sale} (hl : o.lines.length ≤ 200) (hr : o.referrals.length ≤ 4) (hs : o.state ≠ .authWait) :
    OpenFits o := ⟨hl, hr, fun h => absurd h hs⟩

theorem Sound.openSlot (h : Sound R s) {o : Sale} (ho : s.sru.openSlot = some o) : OpenFits o := by
  obtain ⟨_, hopen, _, _⟩ := h.sales
  exact hopen o ho

theorem Sound.setOpen (h : Sound R s) {o : Sale} (ho : OpenFits o) : Sound R (setOpen o s) := by
  obtain ⟨hstack, _, hstacked, hclosing⟩ := h.sales
  refine h.with_sru ⟨hstack, fun p hp => ?_, hstacked, hclosing⟩
  cases hp
  exact ho

theorem openSale_some {o : Sale} (h : s.openSale? = some o) : s.sru.openSlot = some o ∧ o.state = .opened := by
  unfold State.openSale? at h
  split at h
  · split at h
    · cases h
      exact ⟨‹_›, ‹_›⟩
    · cases h
  · cases h

theorem tenderSale_some {o : Sale} (h : s.tenderSale? = some o) :
    s.sru.openSlot = some o ∧ (o.state = .opened ∨ o.state = .tendering) := by
  unfold State.tenderSale? at h
  split at h
  · split at h
    · cases h
      exact ⟨‹_›, ‹_›⟩
    · cases h
  · cases h

theorem authSale_some {o : Sale} {c : CardTender} (h : s.authSale? = some (o, c)) :
    s.sru.openSlot = some o ∧ o.state = .authWait ∧ o.cardTender = some c := by
  unfold State.authSale? at h
  split at h
  · split at h
    · obtain ⟨x, hx, he⟩ := Option.map_eq_some_iff.mp h
      cases he
      exact ⟨‹_›, ‹_›, hx⟩
    · cases h
  · cases h

theorem Sound.raiseSale (h : Sound R s) (o : Sale) (n : SaleNews) : Sound R (raiseSale o n s) := h.raise _

/-- A sale that closes by itself closes SETTLED or ABORTED, with no place of the stack reserved (R60). -/
theorem closes_ne_suspended {o : Sale} {k : ClosingKind} (h : o.closes = some k) : k ≠ .suspended := by
  unfold Sale.closes at h
  split at h <;> cases h <;> decide

theorem Sound.enterClosing (h : Sound R s) : Sound R (enterClosing s) := by
  unfold Machine.enterClosing
  split
  · rename_i o hclosing ho
    split
    · rename_i k hk
      obtain ⟨hstack, hopen, hstacked, _⟩ := h.sales
      obtain ⟨hlines, hrefs, _⟩ := hopen o ho
      refine Sound.swapSlotTables ?_
      refine h.with_sru ⟨?_, fun p hp => (by cases hp), hstacked, fun p hp => ?_⟩
      · show s.sru.stack.length + (if (some k == some ClosingKind.suspended) = true then 1 else 0) ≤ 3
        rw [if_neg (by simpa using closes_ne_suspended hk)]
        omega
      · cases hp
        exact ⟨hlines, hrefs⟩
    · exact h
  · exact h

theorem Sound.leaveClosing (h : Sound R s) : Sound R (leaveClosing s) := by
  unfold Machine.leaveClosing
  split
  · exact h
  · rename_i o hclosing
    obtain ⟨hstack, hopen, hstacked, hclosed⟩ := h.sales
    obtain ⟨hlines, hrefs⟩ := hclosed o hclosing
    split
    · rename_i hk
      refine Sound.raiseSale ?_ _ _
      refine h.with_sru ⟨?_, hopen, fun p hp => ?_, fun p hp => (by cases hp)⟩
      · have hreserved : s.sru.reserved = true := by simp [Sru.reserved, hclosing, hk]
        rw [hreserved, if_pos rfl] at hstack
        show s.sru.stack.length + 1 + 0 ≤ 3
        omega
      · rcases List.mem_cons.mp hp with rfl | hp
        · exact ⟨hlines, hrefs⟩
        · exact hstacked p hp
    · refine Sound.raiseSale ?_ _ _
      refine h.with_sru ⟨?_, hopen, hstacked, fun p hp => (by cases hp)⟩
      show s.sru.stack.length + 0 ≤ 3
      omega

theorem Sound.cutCompleted (h : Sound R s) (tag : Nat) : Sound R (cutCompleted tag s) := by
  unfold Machine.cutCompleted
  split
  · exact h.leaveClosing.enterClosing.composerFill
  · exact h

theorem length_requeue (o : Sale) : o.requeue.lines.length = o.lines.length := by simp [Sale.requeue]

theorem Sound.discardClosing (h : Sound R s) : Sound R (discardClosing s) := by
  unfold Machine.discardClosing
  split
  · exact h
  · rename_i o hclosing
    obtain ⟨hstack, hopen, hstacked, hclosed⟩ := h.sales
    obtain ⟨hlines, hrefs⟩ := hclosed o hclosing
    have hreserved : s.sru.reserved = (o.closingKind == some .suspended) := by simp [Sru.reserved, hclosing]
    rw [hreserved] at hstack
    refine Sound.enterClosing (Sound.leaveClosing ?_)
    refine h.with_sru ⟨?_, hopen, hstacked, fun p hp => ?_⟩
    · split <;> exact hstack
    · cases hp
      split
      · exact ⟨by rw [length_requeue]; exact hlines, hrefs⟩
      · exact ⟨hlines, hrefs⟩

/-! ## Lines and referrals -/

theorem length_append_lines (o : Sale) (l : Line) : (o.append l).lines.length = o.lines.length + 1 := by simp [Sale.append]

theorem length_edit_lines (o : Sale) (n : Nat) (f : Line → Line) : (o.edit n f).lines.length = o.lines.length := by
  simp [Sale.edit]

theorem hasRoom_iff (o : Sale) : o.hasRoom = true ↔ o.lines.length < 200 := decide_eq_true_iff

theorem OpenFits.append {o : Sale} (h : OpenFits o) (hroom : o.lines.length < 200) (l : Line) (hs : o.state ≠ .authWait) :
    OpenFits (o.append l) :=
  .of_live (by rw [length_append_lines]; omega) h.2.1 hs

theorem OpenFits.edit {o : Sale} (h : OpenFits o) (n : Nat) (f : Line → Line) : OpenFits (o.edit n f) := by
  unfold OpenFits
  rw [length_edit_lines]
  exact h

theorem OpenFits.dropReferral {o : Sale} (h : OpenFits o) (n : Nat) : OpenFits (o.dropReferral n) := by
  obtain ⟨hlines, hrefs, hauth⟩ := h
  exact ⟨hlines, (List.length_filter_le _ _).trans hrefs, hauth⟩

theorem OpenFits.voidReferred {o : Sale} (h : OpenFits o) (n : Nat) : OpenFits (o.voidReferred n) :=
  (h.edit n _).dropReferral n

theorem OpenFits.requeue {o : Sale} (h : OpenFits o) : OpenFits o.requeue := by
  unfold OpenFits
  rw [length_requeue]
  exact h

theorem Sound.raiseReferral (h : Sound R s) (o : Sale) : Sound R (raiseReferral o s) := h.raise _

/-- An admitted line finds room in the line list, and a REFERRED one in the referral list (R65). -/
theorem Sound.addLine (h : Sound R s) {o : Sale} (ho : OpenFits o) (hs : o.state ≠ .authWait) {l : Line}
    (hl : o.admits l = true) {r : Option ReferralReason} (hr : r.isSome = true → l.state = .referred) :
    Sound R (addLine o l r s) := by
  unfold Sale.admits at hl
  rw [Bool.and_eq_true, hasRoom_iff] at hl
  obtain ⟨hroom, hl⟩ := hl
  have happ := ho.append hroom l hs
  unfold Machine.addLine
  split
  · exact (h.setOpen happ).composerAct
  · rw [if_pos (hr rfl), decide_eq_true_eq] at hl
    obtain ⟨hlines, hrefs, hauth⟩ := happ
    refine Sound.composerAct (Sound.raiseReferral ?_ _)
    refine h.setOpen ⟨hlines, ?_, hauth⟩
    show (o.referrals ++ [_]).length ≤ 4
    rw [List.length_append, List.length_singleton]
    omega

theorem weighedLine_referred {c : Capture} {g : Figures} (h : (weighedPricing c.item g.certified).1.isSome = true) :
    (weighedLine c g).state = .referred := by
  rw [weighedLine_state, if_pos h]

theorem Sound.postWeighed (h : Sound R s) (c : Capture) (g : Figures) : Sound R (postWeighed c g s).1 := by
  unfold Machine.postWeighed
  split
  · exact h
  · rename_i o ho
    obtain ⟨hslot, hstate⟩ := openSale_some ho
    dsimp only
    split
    · exact h.addLine (h.openSlot hslot) (by rw [hstate]; decide) ‹_› weighedLine_referred
    · exact h

theorem Sound.offerEmbedded (h : Sound R s) (plu amount : Nat) : Sound R (offerEmbedded plu amount s).1 := by
  unfold Machine.offerEmbedded
  split
  · exact h
  · rename_i o ho
    obtain ⟨hslot, hstate⟩ := openSale_some ho
    dsimp only
    split
    · exact h
    · split
      · refine h.addLine (h.openSlot hslot) (by rw [hstate]; decide) ‹_› fun hr => ?_
        by_contra hne
        simp [hne] at hr
      · exact h

/-! ## Settlement -/

theorem Sound.settle (h : Sound R s) {o : Sale} (ho : OpenFits o) : Sound R (settle o s) := by
  obtain ⟨hlines, hrefs, _⟩ := ho
  have hcounted : Sound R (Machine.setOpen { o with state := .settled, saleNumber := s.sst.nextNumber o.itemTotal.toNat }
      (Machine.countSale o.itemTotal.toNat s)) :=
    (h.countSale _).setOpen (.of_live hlines hrefs (fun hs => by cases hs))
  unfold Machine.settle
  refine Sound.composerAct (Sound.enterClosing (Sound.raiseSale ?_ _ _))
  split
  · exact hcounted.issueAuth _
  · exact hcounted

theorem declined_ne_authWait (o : Sale) : o.declined.state ≠ .authWait := by
  unfold Sale.declined
  dsimp only
  split <;> decide

theorem Sound.declineCard (h : Sound R s) {o : Sale} (ho : OpenFits o) : Sound R (declineCard o s) := by
  obtain ⟨hlines, hrefs, _⟩ := ho
  have hopen := h.setOpen (OpenFits.of_live (o := o.declined) hlines hrefs (declined_ne_authWait o))
  exact Sound.composerAct (s := clearCard (Machine.setOpen o.declined s)) hopen

end

end Sys2Proof.Machine
end

section
/-! Proofs about the invariants: the accessory port, the filtered update, the resets, and the step. -/

namespace Sys2Proof.Machine

open Sys2Proof

section
variable {R : List Response} {s : State}

/-! ## The stripe decoder -/

theorem Sound.with_sdc (h : Sound R s) (d : Sdc) : Sound R { s with sdc := d } := h

theorem Sound.placeRecord (h : Sound R s) (w : Swipe) (a b : TrackOutcome) : Sound R (placeRecord w a b s) := by
  unfold Machine.placeRecord
  split
  · exact h
  · split
    · exact (h.with_sdc _).raise _
    · exact (h.with_sdc _).raise _
    · exact h.raise _

theorem Sound.endSwipe (h : Sound R s) (w : Swipe) : Sound R (endSwipe w s) := by
  have hplaced := h.placeRecord w (s.sdc.trackA.outcome w.formatA) (s.sdc.trackB.outcome w.formatB)
  unfold Machine.endSwipe
  exact (hplaced.with_sdc _).trySwap _

/-! ## Reads and units -/

theorem Sound.with_units (h : Sound R s) (u : Units) : Sound R { s with acp := { s.acp with units := u } } :=
  h.with_quiet_acp rfl rfl

theorem Sound.mirrorSync (h : Sound R s) : Sound R (mirrorSync s) := by
  unfold Machine.mirrorSync
  split
  · exact h.with_quiet_acp rfl rfl
  · exact h.with_quiet_acp rfl rfl

/-- A downstream queue within its sixteen frames, and a visit only where one was. -/
theorem Sound.with_queue (h : Sound R s) {a : Acp} (hv : a.visit = s.acp.visit) (hq : a.queue.length ≤ 16) :
    Sound R { s with acp := a } := by
  obtain ⟨hreq, hres, hups, hvisit, _, hn⟩ := h.link
  exact h.with_acp ⟨hreq, hres, hups, by rw [hv]; exact hvisit, hq, hn⟩

theorem Sound.downQueue (h : Sound R s) : s.acp.queue.length ≤ 16 := by
  obtain ⟨_, _, _, _, hqueue, _⟩ := h.link
  exact hqueue

theorem Sound.dropFrames (h : Sound R s) (n : Nat) : Sound R (dropFrames n s) :=
  h.with_queue rfl ((List.length_filter_le _ _).trans h.downQueue)

theorem Sound.setPresence (h : Sound R s) (n : Nat) (p : Presence) (m : Nat) : Sound R (setPresence n p m s) :=
  h.with_units _

theorem Sound.becomePresent (h : Sound R s) (n : Nat) : Sound R (becomePresent n s) :=
  ((h.setPresence n .present 0).raiseAccessory _ _ _ _).mirrorSync

theorem Sound.becomeAbsent (h : Sound R s) (n : Nat) : Sound R (becomeAbsent n s) :=
  ((((h.setPresence n .absent 0).raiseAccessory _ _ _ _).dropFrames n).raiseAccessory _ _ _ _).mirrorSync

theorem Sound.noteAnswer (h : Sound R s) (n : Nat) : Sound R (noteAnswer n s) := by
  unfold Machine.noteAnswer
  split
  · exact h.becomePresent n
  · exact h.becomePresent n
  · exact h.setPresence n .present 0

theorem Sound.noteMiss (h : Sound R s) (n : Nat) : Sound R (noteMiss n s) := by
  unfold Machine.noteMiss
  split
  · exact h.becomeAbsent n
  · split
    · exact h.becomeAbsent n
    · exact h.setPresence n _ _
  · exact h

/-- A unit is visited only while the accessory part has room (R159): whatever was visited before, the round that goes on
restores the room for an answer. -/
theorem Sound.visitFrom (ns : List Nat) (h : Sound R { s with acp := { s.acp with visit := none } }) :
    Sound R (visitFrom ns s) := by
  induction ns with
  | nil => exact h
  | cons n ns ih =>
    unfold Machine.visitFrom
    split
    · exact ih
    · rename_i hskip
      have hroom : s.lli.accUps.length < 24 := by
        simp only [State.skips, Bool.or_eq_true, decide_eq_true_eq, not_or, not_le] at hskip
        exact hskip.2
      obtain ⟨hreq, hres, hups, _, hqueue, hn⟩ := h.link
      unfold Machine.visit
      split
      · exact h.with_acp ⟨hreq, hres, hups, fun _ => hroom, (List.length_erase_le).trans hqueue, hn⟩
      · exact h.with_acp ⟨hreq, hres, hups, fun _ => hroom, hqueue, hn⟩

theorem Sound.unvisited (h : Sound R s) : Sound R { s with acp := { s.acp with visit := none } } := by
  obtain ⟨hreq, hres, hups, _, hqueue, hn⟩ := h.link
  exact h.with_acp ⟨hreq, hres, hups, fun hv => (by cases hv), hqueue, hn⟩

theorem Sound.visitAfter (h : Sound R s) (n : Nat) : Sound R (visitAfter n s) := h.unvisited.visitFrom _

/-- A frame passed up takes the room that the visit waited for. -/
theorem Sound.passUp_unvisited (h : Sound R s) (f : AccFrame) (hroom : s.lli.accUps.length < 24) :
    Sound R { passUp f s with acp := { (passUp f s).acp with visit := none } } := by
  obtain ⟨hreq, hres, _, _, hqueue, hn⟩ := h.link
  refine ⟨⟨h.budget, ⟨hreq, hres, ?_, fun hv => (by cases hv), hqueue, hn⟩, h.1.2.2⟩, h.2⟩
  show (s.lli.accUps ++ [f]).length ≤ 24
  rw [List.length_append, List.length_singleton]
  omega

theorem Sound.blockRead (h : Sound R s) (unit : Nat) (r : BlockReason) : Sound R (blockRead unit r s) := by
  have hcounted := h.with_quiet_acp (a := { s.acp with blocked := min 65535 (s.acp.blocked + 1) }) rfl rfl
  exact hcounted.raiseAccessory _ _ _ _

theorem Sound.weighRead (h : Sound R s) (f : AccFrame) (plu : Nat) :
    Sound R (weighRead f plu s) ∨ weighRead f plu s = passUp f s := by
  unfold Machine.weighRead
  split
  · exact .inr rfl
  · split
    · exact .inl ((h.beginCapture plu .scan (captureRefusal_running ‹_›)).raiseAccessory _ _ _ _)
    · exact .inl (h.with_quiet_acp rfl rfl)
    · exact .inr rfl

theorem Sound.embeddedRead (h : Sound R s) (f : AccFrame) (plu amount : Nat) :
    Sound R (embeddedRead f plu amount s) ∨ embeddedRead f plu amount s = passUp f s := by
  unfold Machine.embeddedRead
  split
  · exact .inl ((h.offerEmbedded plu amount).raiseAccessory _ _ _ _)
  · exact .inr rfl
  · exact .inr rfl

/-- A read acts, or goes up unchanged. -/
theorem Sound.routeUp (h : Sound R s) (f : AccFrame) : Sound R (routeUp f s) ∨ routeUp f s = passUp f s := by
  unfold Machine.routeUp
  split
  · split
    · unfold filterRead
      split
      · exact .inr rfl
      · exact .inl (h.blockRead _ _)
      · exact h.weighRead f _
      · exact h.embeddedRead f _ _
    · exact .inr rfl
  · exact .inr rfl

theorem noteAnswer_accUps (n : Nat) (s : State) : (noteAnswer n s).lli.accUps = s.lli.accUps := by
  have hsync : ∀ t : State, (Machine.mirrorSync t).lli = t.lli := fun t => by unfold Machine.mirrorSync; split <;> rfl
  unfold Machine.noteAnswer Machine.becomePresent
  split
  · rw [hsync]; rfl
  · rw [hsync]; rfl
  · rfl

theorem Sound.takeAnswer (h : Sound R s) (f : AccFrame) (hroom : s.lli.accUps.length < 24) : Sound R (takeAnswer f s) := by
  have hnoted := h.noteAnswer f.unit
  unfold Machine.takeAnswer
  dsimp only
  split
  · exact hnoted.visitAfter _
  · rcases hnoted.routeUp f with hup | hup
    · exact hup.visitAfter _
    · rw [hup]
      exact Sound.visitFrom _ (hnoted.passUp_unvisited f (by rw [noteAnswer_accUps]; exact hroom))

theorem Sound.answerArrives (h : Sound R s) (bytes : List Byte) : Sound R (answerArrives bytes s) := by
  unfold Machine.answerArrives
  split
  · exact h
  · rename_i v hv
    split
    · obtain ⟨_, _, _, hvisit, _, _⟩ := h.link
      exact h.takeAnswer _ (hvisit (by rw [hv]; rfl))
    · exact h

theorem Sound.answerMissed (h : Sound R s) : Sound R (answerMissed s) := by
  unfold Machine.answerMissed
  split
  · exact h
  · exact (h.noteMiss _).visitAfter _

theorem Sound.roundStarts (h : Sound R s) : Sound R (roundStarts s) := by
  unfold Machine.roundStarts
  split
  · exact h
  · rename_i hv
    refine Sound.visitFrom _ ?_
    exact h.with_queue (by rw [hv]) h.downQueue

theorem Sound.downArrives (h : Sound R s) (unit : Nat) (tag : Byte) (payload : List Byte) :
    Sound R (downArrives unit tag payload s) := by
  unfold Machine.downArrives
  split
  · exact h.raiseAccessory _ _ _ _
  · split
    · exact h
    · refine h.with_queue rfl ?_
      simp only [List.length_append, List.length_singleton]
      omega

/-! ## The mirror and the roles -/

theorem length_placeMirror_le (f : DownFrame) {q : List DownFrame} (h : q.length ≤ 16) : (placeMirror f q).length ≤ 16 := by
  unfold placeMirror
  split
  · rw [List.length_map]; exact h
  · split
    · rw [List.length_cons]; omega
    · exact h

theorem Sound.makeMirror (h : Sound R s) : Sound R (makeMirror s) := by
  unfold Machine.makeMirror
  split
  · exact h
  · exact h.with_queue rfl (length_placeMirror_le _ h.downQueue)

theorem Sound.mirrorTick (h : Sound R s) : Sound R (mirrorTick s) := by
  unfold Machine.mirrorTick
  split
  · exact h.makeMirror.with_quiet_acp rfl rfl
  · split
    · exact h.makeMirror.with_quiet_acp rfl rfl
    · exact h

theorem Sound.mirrorExpires (h : Sound R s) : Sound R (mirrorExpires s) := by
  unfold Machine.mirrorExpires
  split
  · exact h
  · rename_i due _
    have hon := h.with_quiet_acp (a := { s.acp with mirrorDue := some (due + 200000) }) rfl rfl
    exact (hon.reach due).mirrorTick

theorem Sound.changeRole (h : Sound R s) (n : Nat) (r : Role) : Sound R (changeRole n r s) :=
  h.with_queue rfl ((List.length_filter_le _ _).trans h.downQueue)

theorem Sound.changeRoles (h : Sound R s) (rs : List Role) : Sound R (changeRoles rs s) := by
  unfold Machine.changeRoles
  refine List.foldlRecOn _ _ h fun t ht p _ => ?_
  split
  · exact ht
  · exact ht.changeRole _ _

theorem Sound.endVisit (h : Sound R s) : Sound R (endVisit s) := by
  unfold Machine.endVisit
  split
  · split
    · exact h.visitAfter _
    · exact h
  · exact h

theorem Sound.setRoles (h : Sound R s) (rs : List Role) : Sound R (setRoles rs s) := by
  unfold Machine.setRoles
  refine Sound.endVisit (Sound.mirrorSync ?_)
  split
  · exact h.changeRoles rs
  · exact (h.changeRoles rs).discardHeld

/-! ## Parameters -/

theorem clamp_bounds (lo hi : Nat) (v : Int) (h : lo ≤ hi) : lo ≤ clamp lo hi v ∧ clamp lo hi v ≤ hi := by
  unfold clamp
  omega

theorem nearestLength_mem (v : Int) : nearestLength v ∈ [8, 16, 32, 64] := by
  unfold nearestLength
  split
  · decide
  · split
    · decide
    · split <;> decide

/-- Every parameter takes a value in its range (R197). -/
theorem ParamsKept.set {k : Param} {v : Int} (h : ParamsKept s) :
    ParamsKept { s with lli := { s.lli with params := s.lli.params.set k v } } := by
  have hfilter := nearestLength_mem v
  have h1 := clamp_bounds 20 200 v (by decide)
  have h2 := clamp_bounds 500 10000 v (by decide)
  have h3 := clamp_bounds 50 500 v (by decide)
  have h4 := clamp_bounds 10 300 v (by decide)
  have h5 := clamp_bounds 30 300 v (by decide)
  have h6 := clamp_bounds 30 600 v (by decide)
  have h8 := clamp_bounds 200 2000 v (by decide)
  have h9 := clamp_bounds 5 300 v (by decide)
  have h10 := clamp_bounds 64 384 v (by decide)
  have h11 := clamp_bounds 24 48 v (by decide)
  have h12 := clamp_bounds 0 3 v (by decide)
  have h13 := clamp_bounds 0 6 v (by decide)
  unfold ParamsKept at *
  cases k <;> simp only [Params.set] <;> tauto

theorem Sound.with_params (h : Sound R s) {k : Param} {v : Int} :
    Sound R { s with lli := { s.lli with params := s.lli.params.set k v } } :=
  ⟨⟨h.budget, h.link, h.paper, h.sales, h.params.set, h.channel⟩, h.2⟩

theorem Sound.relearn (h : Sound R s) : Sound R { s with wch := s.wch.relearn } := by
  obtain ⟨hring, hcount, _, hfault⟩ := h.channel
  exact h.with_wch ⟨hring, hcount, Nat.zero_le _, hfault⟩

theorem Sound.setParam (h : Sound R s) (k : Param) (v : BitVec 32) : Sound R (setParam k v s) := by
  cases k with
  | accessoryRoles => exact h.setRoles _
  | displayMirror => exact (h.with_params (k := .displayMirror)).mirrorSync
  | filterLength =>
    unfold Machine.setParam
    dsimp only
    split
    · exact h.with_params (k := .filterLength)
    · exact (h.with_params (k := .filterLength)).relearn
  | stabilityCount => exact h.with_params (k := .stabilityCount)
  | captureTimeout => exact h.with_params (k := .captureTimeout)
  | disturbanceSettle => exact h.with_params (k := .disturbanceSettle)
  | cardExpiry => exact h.with_params (k := .cardExpiry)
  | authTimeout => exact h.with_params (k := .authTimeout)
  | referralTimeout => exact h.with_params (k := .referralTimeout)
  | drawerPulse => exact h.with_params (k := .drawerPulse)
  | drawerConfirm => exact h.with_params (k := .drawerConfirm)
  | drawerOverdue => exact h.with_params (k := .drawerOverdue)
  | closeBeforeSale => exact h.with_params (k := .closeBeforeSale)
  | printDensity => exact h.with_params (k := .printDensity)
  | linePitch => exact h.with_params (k := .linePitch)
  | amountDecimals => exact h.with_params (k := .amountDecimals)
  | maskLeadDigits => exact h.with_params (k := .maskLeadDigits)

/-! ## The filtered update -/

theorem Sound.refillEnd (h : Sound R s) : Sound R (refillEnd s) := by
  obtain ⟨hring, hcount, hstab, _⟩ := h.channel
  unfold Machine.refillEnd
  split
  · exact h
  · split
    · exact h.enterFault _
    · split
      · exact h.enterFault _
      · dsimp only
        split
        · exact h.with_live_wch hring hcount hstab (fun hf => by cases hf)
        · exact h.with_live_wch hring hcount hstab (fun hf => by cases hf)
        all_goals
          split
          · exact h.with_live_wch hring hcount hstab (fun hf => by cases hf)
          · exact h.with_live_wch hring hcount hstab (fun hf => by cases hf)

/-- The judge of stability keeps the count to 200, and touches the reference and the count alone (R10). -/
theorem judge_eq (w : Wch) (v : Int) (b : Nat) :
    w.judge v b = { w with stabRef := (w.judge v b).stabRef, stabCount := (w.judge v b).stabCount } := by
  unfold Wch.judge
  split
  · rfl
  · split
    · rfl
    · split <;> rfl

theorem judge_count_le (w : Wch) (v : Int) (b : Nat) : (w.judge v b).stabCount ≤ 200 := by
  unfold Wch.judge
  split
  · exact Nat.zero_le _
  · split
    · exact Nat.zero_le _
    · split
      · exact Nat.min_le_left _ _
      · exact Nat.zero_le _

theorem Sound.indicate (h : Sound R s) (u : Update) : Sound R (s.indicate u) := by
  obtain ⟨hring, hcount, hstab, hfault⟩ := h.channel
  have hle := judge_count_le s.wch (u.judged s.record?).1 (u.judged s.record?).2
  unfold State.indicate
  dsimp only
  refine h.with_wch ?_
  rw [judge_eq]
  exact ⟨hring, hcount, hle, hfault⟩

theorem Sound.initialZero (h : Sound R s) (u : Update) : Sound R (initialZero u s) := by
  obtain ⟨hring, hcount, hstab, hfault⟩ := h.channel
  unfold Machine.initialZero
  split
  · split
    · split
      · exact h.with_live_wch hring hcount hstab (fun hf => by cases hf)
      · exact h.with_wch ⟨hring, hcount, hstab, hfault⟩
    · exact h
  · exact h

theorem Sound.autoClearTare (h : Sound R s) (u : Update) : Sound R (autoClearTare u s) := by
  obtain ⟨hring, hcount, hstab, hfault⟩ := h.channel
  unfold Machine.autoClearTare
  split
  · split
    · exact h.with_wch ⟨hring, hcount, hstab, fun hf => ⟨rfl, (hfault hf).2⟩⟩
    · exact h
  · exact h

theorem Sound.closeCapture (h : Sound R s) (c : Capture) (a : Option (Nat × LineState)) :
    Sound R (closeCapture c a s) := by
  obtain ⟨hring, hcount, hstab, hfault⟩ := h.channel
  refine Sound.raise ?_ _
  refine h.with_wch ⟨hring, hcount, hstab, fun hf => ?_⟩
  obtain ⟨htare, htrack, hwatch, hcal, _⟩ := hfault hf
  exact ⟨by show s.wch.tare.afterCapture = .none; rw [htare]; rfl, htrack, hwatch, hcal, rfl⟩

theorem Sound.completeCapture (h : Sound R s) (u : Update) : Sound R (completeCapture u s) := by
  unfold Machine.completeCapture
  split
  · split
    · exact ((h.postWeighed _ _).closeCapture _ _).captureEmptied
    · exact h
  · exact h

theorem Sound.clearInterlock (h : Sound R s) (u : Update) : Sound R (clearInterlock u s) := by
  have hclear := h.with_wch (w := { s.wch with interlock := false }) h.channel
  unfold Machine.clearInterlock
  dsimp only
  split <;> split
  · exact hclear
  · exact h
  · exact hclear
  · exact h

theorem Sound.averageStep (h : Sound R s) (u : Update) : Sound R (averageStep u s) := by
  obtain ⟨hring, hcount, hstab, hfault⟩ := h.channel
  unfold Machine.averageStep
  split
  · exact h
  · rename_i c hc
    have hlive : s.wch.state ≠ .fault := fun hf => by
      obtain ⟨_, _, _, hcal, _⟩ := hfault hf
      rw [hc] at hcal
      cases hcal
    split
    · exact h
    · dsimp only
      split
      · refine Sound.raise ?_ _
        exact h.with_live_wch hring hcount hstab hlive
      · exact h.with_live_wch hring hcount hstab hlive

theorem Sound.updateChecks (h : Sound R s) (u : Update) : Sound R (updateChecks u s) :=
  ((((h.initialZero u).autoClearTare u).completeCapture u).clearInterlock u).averageStep u

theorem Sound.filteredUpdate (h : Sound R s) : Sound R (filteredUpdate s) := by
  unfold Machine.filteredUpdate
  dsimp only
  split
  · exact h.refillEnd
  · exact (h.refillEnd.indicate _).updateChecks _

theorem Sound.takeSample (h : Sound R s) (v : Int) (hlive : s.wch.state ≠ .fault) : Sound R (takeSample v s) := by
  obtain ⟨_, _, hstab, _⟩ := h.channel
  have hentered : Sound R { s with wch := { s.wch.enter (s.substitute v) s.clock with
      cal := s.wch.cal.map fun c => c.add (s.substitute v) } } := by
    refine h.with_live_wch ?_ (Nat.min_le_left _ _) hstab hlive
    show (List.take 64 _).length ≤ 64
    rw [List.length_take]
    omega
  unfold Machine.takeSample
  dsimp only
  split
  · exact hentered.filteredUpdate
  · exact hentered

theorem Sound.sampleRead (h : Sound R s) (v : Int) : Sound R (sampleRead v s) := by
  unfold Machine.sampleRead
  split
  · exact h
  · exact (h.reach _).takeSample v ‹_›

theorem track_eq (w : Wch) (r : CalRecord) (zi f g : Int) :
    w.track r zi f g = { w with
      zo := (w.track r zi f g).zo, stabRef := (w.track r zi f g).stabRef, zeroLimit := (w.track r zi f g).zeroLimit } := by
  unfold Wch.track
  dsimp only
  split
  · rfl
  · split <;> rfl

theorem Sound.trackZero (h : Sound R s) : Sound R (trackZero s) := by
  unfold Machine.trackZero
  split
  · split
    · refine h.with_wch ?_
      rw [track_eq]
      exact h.channel
    · exact h
  · exact h

end

end Sys2Proof.Machine
end

section
/-! Proofs about the invariants: the work of each command, and the step. -/

namespace Sys2Proof.Machine

open Sys2Proof

section
variable {R : List Response} {s : State}

/-! ## The weighing channel's commands -/

theorem Sound.watchExpires (h : Sound R s) : Sound R (watchExpires s) := by
  unfold Machine.watchExpires
  split
  · split
    · exact h
    · exact (h.reach _).enterFault _
  · exact h

theorem Sound.trackingExpires (h : Sound R s) : Sound R (trackingExpires s) := by
  unfold Machine.trackingExpires
  split
  · rename_i due _
    split
    · rename_i hrun
      obtain ⟨hring, hcount, hstab, _⟩ := h.channel
      have hon := h.with_live_wch (w := { s.wch with trackDue := some (due + 1000000) }) hring hcount hstab
        (fun hf => by rw [show s.wch.state = .fault from hf] at hrun; cases hrun)
      exact (hon.reach due).trackZero
    · exact h
  · exact h

theorem Sound.captureTimeout (h : Sound R s) : Sound R (captureTimeout s) := by
  unfold Machine.captureTimeout
  split
  · exact (h.reach _).finishCapture _
  · exact h

theorem Sound.windowCloses (h : Sound R s) : Sound R (windowCloses s) := by
  unfold Machine.windowCloses
  split
  · exact h.with_wch (w := { s.wch with window := .closed }) h.channel
  · exact h
  · exact h

theorem Sound.weighRestart (h : Sound R s) : Sound R (weighRestart s).1 := by
  unfold Machine.weighRestart
  split
  · exact h
  · exact h.restart s.wch _

/-- Zo, the stability reference and the zero-limit bit have no range of their own. -/
theorem Sound.weighZero (h : Sound R s) : Sound R (weighZero s).1 := by
  unfold Machine.weighZero
  repeat' split
  all_goals exact h

theorem Sound.setTare (h : Sound R s) (t : Tare) (hr : s.wch.state = .running) : Sound R (setTare t s).1 := by
  obtain ⟨hring, hcount, hstab, _⟩ := h.channel
  have hset := h.with_live_wch (w := { s.wch with tare := t }) hring hcount hstab
    (fun hf => by rw [show s.wch.state = .fault from hf] at hr; cases hr)
  exact hset.raiseWeight

theorem Sound.weighTare (h : Sound R s) : Sound R (weighTare s).1 := by
  unfold Machine.weighTare
  split
  · exact h
  · rename_i hr
    repeat' split
    all_goals first
      | exact h
      | exact h.setTare _ (not_not.mp hr)

theorem Sound.weighPresetTare (h : Sound R s) (grams : Nat) : Sound R (weighPresetTare grams s).1 := by
  unfold Machine.weighPresetTare
  split
  · exact h
  · rename_i hr
    repeat' split
    all_goals first
      | exact h
      | exact h.setTare _ (not_not.mp hr)

theorem Sound.weighClearTare (h : Sound R s) : Sound R (weighClearTare s).1 := by
  obtain ⟨hring, hcount, hstab, hfault⟩ := h.channel
  unfold Machine.weighClearTare
  split
  · exact h
  · split
    · exact h
    · exact h.with_wch ⟨hring, hcount, hstab, fun hf => ⟨rfl, (hfault hf).2⟩⟩

theorem Sound.weighCapture (h : Sound R s) (tag : Byte) (plu : Nat) : Sound R (weighCapture tag plu s).1 := by
  unfold Machine.weighCapture
  split
  · exact h
  · exact h.beginCapture _ _ (captureRefusal_running ‹_›)

theorem Sound.weighCancel (h : Sound R s) : Sound R (weighCancel s).1 := by
  unfold Machine.weighCancel
  split
  · exact h.finishCapture _
  · split <;> exact h

theorem Sound.weighTestOn (h : Sound R s) (offset : Int) : Sound R (weighTestOn offset s).1 := by
  unfold Machine.weighTestOn
  split
  · exact h.restart _ _
  · exact h

theorem Sound.weighTestOff (h : Sound R s) : Sound R (weighTestOff s).1 := by
  unfold Machine.weighTestOff
  split
  · exact h.restart _ _
  · exact h

/-! ## Calibration and the store -/

theorem Sound.switchOpens (h : Sound R s) : Sound R (switchOpens s) := by
  unfold Machine.switchOpens
  split
  · exact h
  · split
    · exact h.editCal fun c => { c with pendingLeave := true }
    · exact h.leaveCal.raise _

theorem Sound.calSwitchChanges (h : Sound R s) (closed : Bool) : Sound R (calSwitchChanges closed s) := by
  have hset := h.with_wch (w := { s.wch with calSwitchClosed := closed }) h.channel
  unfold Machine.calSwitchChanges
  split
  · exact h
  · dsimp only
    split
    · exact hset
    · exact hset.switchOpens

theorem Sound.stepTimeout (h : Sound R s) : Sound R (stepTimeout s) := by
  unfold Machine.stepTimeout
  split
  · exact (h.reach _).endStep _
  · exact h

theorem Sound.calEnter (h : Sound R s) : Sound R (calEnter s).1 := by
  unfold Machine.calEnter
  repeat' split
  all_goals first
    | exact h
    | exact (h.restart _ _).holdImposed

theorem Sound.calLeave (h : Sound R s) : Sound R (calLeave s).1 := by
  unfold Machine.calLeave
  split
  · exact h
  · split
    · exact h
    · exact h.leaveCal

theorem Sound.calZero (h : Sound R s) : Sound R (calZero s).1 := by
  unfold Machine.calZero
  split
  · exact h
  · exact h.editCal _

theorem Sound.calSpan (h : Sound R s) (mcal : Nat) : Sound R (calSpan mcal s).1 := by
  unfold Machine.calSpan
  split
  · exact h
  · repeat' split
    all_goals first
      | exact h
      | exact h.editCal _

theorem Sound.calRanges (h : Sound R s) (max1 e1 max e2 : Nat) : Sound R (calRanges max1 e1 max e2 s).1 := by
  unfold Machine.calRanges
  split
  · exact h
  · split
    · exact (h.editCal _).raise _
    · exact h

/-- Starting a write changes the store alone. -/
theorem Sound.calCommit (h : Sound R s) : Sound R (calCommit s).1 := by
  unfold Machine.calCommit
  repeat' split
  all_goals exact h

/-! ## The sale -/

theorem Sound.saleOpen (h : Sound R s) : Sound R (saleOpen s).1 := by
  have hopen : Sound R (Machine.setOpen (Sale.fresh s.sru.nextTag s.tbs.item.generation) s) :=
    h.setOpen (.of_live (Nat.zero_le _) (Nat.zero_le _) (fun hs => by cases hs))
  unfold Machine.saleOpen
  repeat' split
  · exact h
  · exact h
  · exact h
  · exact Sound.composerAct (s := { Machine.setOpen _ s with sru := Sru.advanceTag _ }) (hopen.with_sru hopen.sales)

theorem itemLine_referred {item : Option ItemEntry} {plu quantity : Nat}
    (h : (itemLine item plu quantity).2.isSome = true) : (itemLine item plu quantity).1.state = .referred := by
  unfold itemLine at h ⊢
  split
  · rfl
  · split
    · rfl
    · rename_i hr
      simp [hr] at h

theorem Sound.itemAdd (h : Sound R s) (plu quantity : Nat) : Sound R (itemAdd plu quantity s).1 := by
  unfold Machine.itemAdd
  split
  · exact h
  · rename_i o ho
    obtain ⟨hslot, hstate⟩ := openSale_some ho
    split
    · exact h
    · split
      · exact h
      · split
        · exact h
        · dsimp only
          split
          · exact h.addLine (h.openSlot hslot) (by rw [hstate]; decide) ‹_› itemLine_referred
          · exact h

theorem Sound.itemText (h : Sound R s) (text : List Byte) (amount : Int) : Sound R (itemText text amount s).1 := by
  unfold Machine.itemText
  split
  · exact h
  · rename_i o ho
    obtain ⟨hslot, hstate⟩ := openSale_some ho
    repeat' split
    · exact h
    · exact h
    · exact h.addLine (h.openSlot hslot) (by rw [hstate]; decide) ‹_› (fun hr => by cases hr)
    · exact h

theorem ne_authWait_of_tender {o : Sale} (h : o.state = .opened ∨ o.state = .tendering) : o.state ≠ .authWait := by
  rcases h with h | h <;> rw [h] <;> decide

theorem OpenFits.voidPosted {o : Sale} (h : OpenFits o) (hroom : o.hasRoom = true) (l : Line) (hs : o.state ≠ .authWait) :
    OpenFits (o.voidPosted l) := by
  rw [hasRoom_iff] at hroom
  exact (h.edit l.number _).append (by rw [length_edit_lines]; exact hroom) _ hs

theorem OpenFits.afterCashVoid {o : Sale} (h : OpenFits o) : OpenFits o.afterCashVoid := by
  have ⟨hlines, hrefs, _⟩ := h
  unfold Sale.afterCashVoid
  split
  · exact .of_live hlines hrefs (fun hs => by cases hs)
  · exact h

theorem Sound.voidLine (h : Sound R s) {o : Sale} (ho : OpenFits o) (hs : o.state ≠ .authWait) (l : Line) :
    Sound R (voidLine o l s).1 := by
  unfold Machine.voidLine
  split
  · exact h
  · split
    · exact ((h.setOpen (ho.voidReferred _)).raiseReferral _).composerAct
    · exact h
  · split
    · split
      · exact h
      · rename_i hlimit
        have hroom : o.hasRoom = true := by
          simp only [Bool.or_eq_true, not_or, Bool.not_eq_true', Bool.not_eq_false] at hlimit
          exact hlimit.1
        split
        · exact h
        · exact (h.setOpen (ho.voidPosted hroom l hs)).composerAct
    · split
      · split
        · exact h
        · rename_i hroom
          rw [Bool.not_eq_true', Bool.not_eq_false] at hroom
          exact (h.setOpen (ho.voidPosted hroom l hs).afterCashVoid).composerAct
      · exact h

theorem Sound.lineVoid (h : Sound R s) (n : Nat) : Sound R (lineVoid n s).1 := by
  unfold Machine.lineVoid
  split
  · exact h
  · rename_i o ho
    obtain ⟨hslot, hstate⟩ := tenderSale_some ho
    split
    · exact h
    · exact h.voidLine (h.openSlot hslot) (ne_authWait_of_tender hstate) _

theorem Sound.endReferral (h : Sound R s) {o : Sale} (ho : OpenFits o) : Sound R (endReferral o s) :=
  ((h.setOpen ho).raiseReferral _).composerAct

theorem Sound.referralAccept (h : Sound R s) (n : Nat) (p : ReferralPrice) : Sound R (referralAccept n p s).1 := by
  unfold Machine.referralAccept
  split
  · exact h
  · rename_i o ho
    obtain ⟨hslot, _⟩ := tenderSale_some ho
    repeat' split
    · exact h
    · exact h
    · exact h.endReferral (((h.openSlot hslot).edit _ _).dropReferral _)
    · exact h

theorem Sound.referralReject (h : Sound R s) (n : Nat) : Sound R (referralReject n s).1 := by
  unfold Machine.referralReject
  split
  · exact h
  · rename_i o ho
    obtain ⟨hslot, _⟩ := tenderSale_some ho
    split
    · exact h
    · exact h.endReferral ((h.openSlot hslot).voidReferred _)

theorem Sound.referralExpires (h : Sound R s) (n : Nat) : Sound R (referralExpires n s) := by
  unfold Machine.referralExpires
  split
  · exact h
  · split
    · exact h
    · exact (h.reach _).endReferral ((h.openSlot ‹_›).voidReferred _)

theorem Sound.reportLeft (h : Sound R s) (o : Sale) : Sound R (reportLeft o s) := by
  unfold Machine.reportLeft
  split
  · exact h.leftOpen
  · exact h

theorem Sound.afterTender (h : Sound R s) {o : Sale} (ho : OpenFits o) (change : Int) : Sound R (afterTender o change s) := by
  unfold Machine.afterTender
  split
  · exact h.settle (o := { o with changeDue := change }) ho
  · exact (h.setOpen ho).composerAct

/-- A sale that a line is appended to in TENDERING. -/
theorem OpenFits.tendering {o : Sale} (h : OpenFits o) (hroom : o.lines.length < 200) (t : Option CardTender) (l : Line) :
    OpenFits ({ o with state := .tendering, cardTender := t }.append l) := by
  obtain ⟨hlines, hrefs, _⟩ := h
  have hbase : OpenFits { o with state := .tendering, cardTender := t } := .of_live hlines hrefs (fun hs => by cases hs)
  exact hbase.append hroom l (fun hs => by cases hs)

theorem Sound.tenderCash (h : Sound R s) (amount : Nat) : Sound R (tenderCash amount s).1 := by
  unfold Machine.tenderCash
  split
  · exact h
  · rename_i o ho
    obtain ⟨hslot, _⟩ := tenderSale_some ho
    split
    · exact h
    · split
      · exact h
      · rename_i hroom
        rw [Bool.not_eq_true', Bool.not_eq_false, hasRoom_iff] at hroom
        have hcash : OpenFits (o.withCash amount) := (h.openSlot hslot).tendering hroom o.cardTender _
        exact ((h.setOpen hcash).reportLeft o).afterTender hcash _

theorem Sound.tenderCard (h : Sound R s) (amount serial : Nat) : Sound R (tenderCard amount serial s).1 := by
  unfold Machine.tenderCard
  split
  · exact h
  · rename_i o ho
    obtain ⟨hslot, _⟩ := tenderSale_some ho
    obtain ⟨hlines, hrefs, _⟩ := h.openSlot hslot
    split
    · exact h
    · split
      · exact h
      · split
        · exact h
        · split
          · exact h
          · rename_i hroom
            rw [Bool.not_eq_true', Bool.not_eq_false, hasRoom_iff] at hroom
            have hwait : Sound R (Machine.setOpen { o with
                state := .authWait
                cardTender := some ⟨amount, serial, s.clock + s.lli.params.authTimeout * 1000000⟩ } s) :=
              h.setOpen ⟨hlines, hrefs, fun _ => hroom⟩
            refine Sound.reportLeft ?_ o
            exact hwait.with_sru hwait.sales

theorem Sound.lateAnswer (h : Sound R s) : Sound R (lateAnswer s).1 := by
  unfold Machine.lateAnswer
  split <;> exact h

theorem Sound.cardApprove (h : Sound R s) (code : List Byte) : Sound R (cardApprove code s).1 := by
  unfold Machine.cardApprove
  split
  · exact h.lateAnswer
  · rename_i o c ho
    obtain ⟨hslot, hstate, _⟩ := authSale_some ho
    split
    · exact h
    · have ho := h.openSlot hslot
      have happroved : OpenFits (o.approved (cardLine c code s)) := ho.tendering (ho.2.2 hstate) none _
      exact Sound.afterTender (s := clearCard (Machine.setOpen _ s)) (h.setOpen happroved) happroved 0

theorem Sound.cardDecline (h : Sound R s) : Sound R (cardDecline s).1 := by
  unfold Machine.cardDecline
  split
  · exact h.lateAnswer
  · rename_i ho
    obtain ⟨hslot, _⟩ := authSale_some ho
    exact h.declineCard (h.openSlot hslot)

theorem Sound.markLate (h : Sound R s) : Sound R (markLate s) := h.with_sru h.sales

theorem Sound.authExpires (h : Sound R s) : Sound R (authExpires s) := by
  unfold Machine.authExpires
  split
  · exact h
  · rename_i ho
    obtain ⟨hslot, _⟩ := authSale_some ho
    exact (((h.reach _).declineCard (h.openSlot hslot)).raise _).markLate

/-- The stack has a place left for the reservation that a suspension makes (R81). -/
theorem Sound.suspend (h : Sound R s) {o : Sale} (ho : OpenFits o) (hclosing : s.sru.closing = none)
    (hplace : s.sru.stacked < 3) : Sound R (suspend o s) := by
  obtain ⟨hlines, hrefs, _⟩ := ho
  obtain ⟨_, _, hstacked, _⟩ := h.sales
  have hmoved : Sound R { s with sru := { s.sru with
      openSlot := none, closing := some { o with state := .closing, closingKind := some .suspended } } } := by
    refine h.with_sru ⟨?_, fun p hp => (by cases hp), hstacked, fun p hp => ?_⟩
    · have hfree : s.sru.reserved = false := by rw [Sru.reserved, hclosing]; rfl
      rw [Sru.stacked, hfree, if_neg Bool.false_ne_true] at hplace
      show s.sru.stack.length + 1 ≤ 3
      omega
    · cases hp
      exact ⟨hlines, hrefs⟩
  exact (hmoved.leftOpen.swapSlotTables.raiseSale _ _).composerAct

theorem Sound.saleSuspend (h : Sound R s) : Sound R (saleSuspend s).1 := by
  unfold Machine.saleSuspend
  split
  · exact h
  · rename_i o ho
    obtain ⟨hslot, _⟩ := openSale_some ho
    split
    · exact h
    · split
      · exact h
      · split
        · exact h
        · split
          · exact h
          · split
            · exact h
            · rename_i hclosing hplace
              exact h.suspend (h.openSlot hslot) (by simpa using hclosing) (by omega)

theorem Sound.saleResume (h : Sound R s) : Sound R (saleResume s).1 := by
  unfold Machine.saleResume
  split
  · rename_i o rest hopen hstack
    obtain ⟨hplaces, _, hstacked, hclosing⟩ := h.sales
    rw [hstack] at hplaces hstacked
    obtain ⟨hlines, hrefs⟩ := hstacked o List.mem_cons_self
    rw [List.length_cons] at hplaces
    refine Sound.composerAct (Sound.raiseSale ?_ _ _)
    refine h.with_sru ⟨?_, fun p hp => ?_, fun p hp => hstacked p (List.mem_cons_of_mem _ hp), hclosing⟩
    · show rest.length + (if s.sru.reserved = true then 1 else 0) ≤ 3
      omega
    · cases hp
      exact OpenFits.of_live hlines hrefs (fun hs => by cases hs)
  · exact h
  · exact h

theorem length_voidReferred_foldl (ns : List Nat) (o : Sale) :
    (ns.foldl Sale.voidReferred o).lines.length = o.lines.length := by
  induction ns generalizing o with
  | nil => rfl
  | cons n ns ih =>
    rw [List.foldl_cons, ih]
    exact length_edit_lines o n _

theorem OpenFits.aborted {o : Sale} (h : OpenFits o) : OpenFits o.aborted :=
  .of_live ((length_voidReferred_foldl _ o).trans_le h.1) (Nat.zero_le _) (fun hs => by cases hs)

theorem Sound.abortTender (h : Sound R s) (o : Sale) : Sound R (abortTender o s) := by
  unfold Machine.abortTender
  split
  · exact (Sound.raise (s := clearCard s) h _).markLate
  · exact h

theorem Sound.abort (h : Sound R s) {o : Sale} (ho : OpenFits o) : Sound R (abort o s) := by
  have htender := (h.setOpen ho.aborted).abortTender o
  unfold Machine.abort
  refine Sound.composerAct (Sound.enterClosing (Sound.raiseSale (Sound.reportLeft ?_ o) _ _))
  split <;> split
  · exact htender.issueAuth _
  · exact (htender.raiseReferral _).issueAuth _
  · exact htender
  · exact htender.raiseReferral _

theorem Sound.saleAbort (h : Sound R s) : Sound R (saleAbort s).1 := by
  unfold Machine.saleAbort
  split
  · exact h
  · repeat' split
    · exact h
    · exact h
    · exact h.abort (h.openSlot ‹_›)

theorem Sound.noSale (h : Sound R s) : Sound R (noSale s).1 := by
  unfold Machine.noSale
  split
  · exact h
  · exact h.issueAuth _

/-! ## The stripe decoder -/

theorem Sound.fluxTransition (h : Sound R s) (k : Track) (time : Nat) : Sound R (fluxTransition k time s) :=
  ((h.reach time).with_sdc _).trySwap _

theorem Sound.swipeEnds (h : Sound R s) : Sound R (swipeEnds s) := by
  unfold Machine.swipeEnds
  split
  · exact (h.reach _).endSwipe _
  · exact h

theorem Sound.recordExpires (h : Sound R s) : Sound R (recordExpires s) := by
  unfold Machine.recordExpires
  split
  · exact ((h.with_sdc _).reach _).raise _
  · exact h
  · exact h

theorem Sound.cardRelease (h : Sound R s) (serial : Nat) : Sound R (cardRelease serial s).1 := by
  unfold Machine.cardRelease
  repeat' split
  all_goals exact h

/-! ## The till -/

theorem Sound.with_tlc (h : Sound R s) (t : Tlc) : Sound R { s with tlc := t } := h

theorem Sound.drawerOut (h : Sound R s) : Sound R (drawerOut s) := by
  unfold Machine.drawerOut
  split
  · exact h.enterOpened _
  · exact h.withdrawSolenoid.enterOpened _
  · exact h.reportPulseEnd.enterOpened _
  · exact h.enterOpened _
  · exact h.enterOpened _
  · exact h
  · exact h

theorem Sound.drawerIn (h : Sound R s) : Sound R (drawerIn s) := by
  unfold Machine.drawerIn
  split
  · exact (h.with_tlc _).raiseDrawer _
  · exact (h.with_tlc _).raiseDrawer _
  all_goals exact h

theorem Sound.setSwitch (h : Sound R s) (b : Bool) : Sound R (setSwitch b s) := h

theorem Sound.pulseExpires (h : Sound R s) : Sound R (pulseExpires s) := by
  unfold Machine.pulseExpires
  split
  · exact ((h.reach _).with_tlc _).reportPulseEnd
  all_goals exact h

theorem Sound.confirmExpires (h : Sound R s) : Sound R (confirmExpires s) := by
  unfold Machine.confirmExpires
  split
  · unfold confirmFailed
    split
    · exact ((h.reach _).with_tlc _).raiseDrawer _
    · exact (h.reach _).towardGrant
  all_goals exact h

theorem Sound.overdueExpires (h : Sound R s) : Sound R (overdueExpires s) := by
  unfold Machine.overdueExpires
  split
  · exact ((h.reach _).with_tlc _).raiseDrawer _
  all_goals exact h

theorem Sound.dropAuth (h : Sound R s) : Sound R (dropAuth s) := h

theorem Sound.tillClear (h : Sound R s) : Sound R (tillClear s).1 := by
  unfold Machine.tillClear
  split
  · exact h.dropAuth.raiseDrawer _
  · split <;> exact h
  all_goals exact h

end

end Sys2Proof.Machine
end

section
/-! Proofs about the invariants: the printer, the tables, the lane link and the resets, and the step. -/

namespace Sys2Proof.Machine

open Sys2Proof

section
variable {R : List Response} {s : State}

/-! ## The printer's commands -/

theorem Sound.with_strobe (h : Sound R s) (b : Bool) : Sound R { s with pbu := { s.pbu with strobe := b } } :=
  h.with_pbu h.budget

theorem Sound.nextPhase (h : Sound R s) (rest : List Phase) : Sound R (nextPhase rest s) := by
  unfold Machine.nextPhase
  split
  · exact h.setPrinter _
  · exact (h.setPrinter _).placePhase _ _

theorem Sound.phaseEnds (h : Sound R s) : Sound R (phaseEnds s) := by
  unfold Machine.phaseEnds
  split
  · exact ((h.reach _).with_strobe false).nextPhase _
  · exact h

/-- What is printed of a sale's lines is no part of the sales' limits. -/
theorem editTagged_markPrinted_unprinted (u : Sru) (t n : Nat) :
    (u.editTagged t fun o => o.markPrinted n).unprinted = u.unprinted := by
  have hsale : ∀ o : Sale, (if o.tag = t then o.markPrinted n else o).lines.length = o.lines.length := fun o => by
    split
    · exact length_edit_lines o n _
    · rfl
  have hline : ∀ o : Sale, (o.markPrinted n).unprinted = o.unprinted := fun o => by
    simp only [Sale.markPrinted, Sale.unprinted, Sale.edit, List.map_map, Sale.mk.injEq, true_and, and_true]
    refine List.map_congr_left fun l _ => ?_
    simp only [Function.comp_apply]
    split <;> rfl
  have hif : ∀ o : Sale, (if o.tag = t then o.markPrinted n else o).unprinted = o.unprinted := fun o => by
    split
    · exact hline o
    · rfl
  simp [Sru.unprinted, Sru.editTagged, Option.map_map, Function.comp_def, hif]

theorem Sound.linePrinted (h : Sound R s) (p : PrintLine) : Sound R (linePrinted p s) := by
  unfold Machine.linePrinted
  split
  · split
    · exact h
    · exact h.with_sru (h.sales.of_unprinted (editTagged_markPrinted_unprinted _ _ _))
  · exact h

theorem Sound.lineLeaves (h : Sound R s) (l : PrintLine) {q : List QueueEntry} (hq : q.length ≤ 48) :
    Sound R (lineLeaves l q s) := by
  obtain ⟨_, _, hsince⟩ := h.paper
  have hleft : Sound R { s with pen := { s.pen with queue := q }.lineLeft l s.lli.params.linePitch } := by
    refine h.with_pen ?_
    unfold Pen.lineLeft
    split
    · exact ⟨hq, show 96 ≤ 255 by decide, hsince⟩
    · exact ⟨hq, Nat.min_le_left _ _, hsince⟩
  exact (hleft.linePrinted l).composerFill

theorem Sound.rowDone (h : Sound R s) : Sound R (rowDone s) := by
  obtain ⟨hqueue, hfeed, hsince⟩ := h.paper
  unfold Machine.rowDone
  split
  · rename_i l q hq
    rw [hq, List.length_cons] at hqueue
    split
    · exact h.lineLeaves _ (by omega)
    · exact h.with_pen ⟨hqueue, hfeed, hsince⟩
  · exact h

theorem Sound.rowEnds (h : Sound R s) : Sound R (rowEnds s) := by
  obtain ⟨hqueue, hfeed, _⟩ := h.paper
  unfold Machine.rowEnds
  split
  · rename_i due _
    have hzero := (h.reach due).with_pen (p := { s.pen with sinceGlyph := 0 }) ⟨hqueue, hfeed, Nat.zero_le _⟩
    exact hzero.rowDone.reportRowEnd.goOn
  · exact h

theorem Sound.feedEnds (h : Sound R s) : Sound R (feedEnds s) := by
  obtain ⟨hqueue, hfeed, _⟩ := h.paper
  unfold Machine.feedEnds
  split
  · rename_i due _
    have hstep := (h.reach due).with_pen
      (p := { s.pen with feed := s.pen.feed - 1, sinceGlyph := min 255 (s.pen.sinceGlyph + 1) })
      ⟨hqueue, (Nat.sub_le _ _).trans hfeed, Nat.min_le_left _ _⟩
    exact hstep.goOn
  · exact h

/-- The printer with the queue and the paper counters it had. -/
theorem Sound.with_quiet_pen (h : Sound R s) {p : Pen} (hq : p.queue = s.pen.queue) (hf : p.feed = s.pen.feed)
    (hg : p.sinceGlyph = s.pen.sinceGlyph) : Sound R { s with pen := p } := by
  obtain ⟨hqueue, hfeed, hsince⟩ := h.paper
  exact h.with_pen ⟨by rw [hq]; exact hqueue, by rw [hf]; exact hfeed, by rw [hg]; exact hsince⟩

theorem Sound.with_pins (h : Sound R s) (p : Pins) : Sound R { s with pins := p } := h

theorem Sound.with_owed (h : Sound R s) (o : Option (Option Nat)) :
    Sound R { s with pen := { s.pen with owed := o } } := h.with_quiet_pen rfl rfl rfl

theorem Sound.cycleCompletes (h : Sound R s) : Sound R (cycleCompletes s) := by
  unfold Machine.cycleCompletes
  dsimp only
  split
  · exact ((h.cutCompleted _).with_owed none).goOn
  · exact (h.with_owed none).goOn
  · exact (h.with_owed none).goOn

theorem Sound.setHome (h : Sound R s) (b : Bool) : Sound R (setHome b s) :=
  (h.with_pins _).with_quiet_pen rfl rfl rfl

theorem Sound.homeShown (h : Sound R s) : Sound R (homeShown s) := by
  unfold Machine.homeShown
  split
  · exact (h.setHome true).cycleCompletes
  · exact h.setHome true

theorem Sound.awayShown (h : Sound R s) : Sound R (awayShown s) := by
  unfold Machine.awayShown
  split
  · exact (h.setHome false).setPrinter _
  · exact h.setHome false

theorem Sound.cutterExpires (h : Sound R s) : Sound R (cutterExpires s) := by
  unfold Machine.cutterExpires
  split
  · exact (h.reach _).enterHalt _
  · exact h

theorem Sound.markNow (h : Sound R s) : Sound R (markNow s) := by
  unfold Machine.markNow
  split
  · exact h.actMark
  · exact h.actMark
  · exact h.actMark
  · exact h

theorem Sound.paperOutChanges (h : Sound R s) (out : Bool) : Sound R (paperOutChanges out s) := by
  have hset := (h.with_pins { s.pins with paperOut := out }).with_quiet_pen
    (p := { s.pen with paperOut := out }) rfl rfl rfl
  unfold Machine.paperOutChanges
  split
  · exact h
  · dsimp only
    split
    · exact (hset.with_quiet_pen (p := { s.pen with paperOut := out, paperMark := true }) rfl rfl rfl).markNow
    · exact hset

theorem Sound.coverOpenChanges (h : Sound R s) (opened : Bool) : Sound R (coverOpenChanges opened s) := by
  have hset := (h.with_pins { s.pins with coverOpen := opened }).with_quiet_pen
    (p := { s.pen with coverOpen := opened }) rfl rfl rfl
  unfold Machine.coverOpenChanges
  split
  · exact h
  · dsimp only
    split
    · exact (hset.with_quiet_pen (p := { s.pen with coverOpen := opened, coverMark := true }) rfl rfl rfl).markNow
    · exact hset

theorem Sound.headHotChanges (h : Sound R s) (hot : Bool) : Sound R (headHotChanges hot s) := by
  have hset := (h.with_pins { s.pins with headHot := hot }).with_quiet_pen
    (p := { s.pen with headHot := hot }) rfl rfl rfl
  unfold Machine.headHotChanges
  split
  · exact h
  · dsimp only
    split
    · exact hset.goOn
    · exact hset

theorem Sound.nearEndChanges (h : Sound R s) (nearEnd : Bool) : Sound R (nearEndChanges nearEnd s) := by
  have hset := (h.with_pins { s.pins with nearEnd := nearEnd }).with_quiet_pen
    (p := { s.pen with nearEnd := nearEnd }) rfl rfl rfl
  unfold Machine.nearEndChanges
  split
  · exact h
  · exact hset.raisePrinter

theorem Sound.printerWarned (h : Sound R s) : Sound R (printerWarned s) := by
  unfold Machine.printerWarned
  split
  · exact h.enterHalt _
  · exact h.enterHalt _
  · exact h

theorem Sound.printerCleared (h : Sound R s) : Sound R (printerCleared s) := by
  unfold Machine.printerCleared
  split
  · exact h.goOn.raisePrinter
  · exact h

theorem Sound.clearMarks (h : Sound R s) : Sound R (clearMarks s) := h.with_quiet_pen rfl rfl rfl

theorem Sound.printResume (h : Sound R s) : Sound R (printResume s).1 := by
  unfold Machine.printResume
  split
  · split
    · exact h
    · split
      · exact h
      · refine Sound.raisePrinter ?_
        unfold resumeFrom
        split
        · exact h.clearMarks.setPrinter _
        · split
          · exact h.clearMarks.startCut
          · exact h.clearMarks.goOn
  · exact h

theorem Sound.discardSale (h : Sound R s) : Sound R (discardSale s) := by
  unfold Machine.discardSale
  split
  · exact h.discardClosing
  · exact (h.setOpen (h.openSlot ‹_›).requeue).with_quiet_pen rfl rfl rfl
  · exact h

theorem Sound.with_free (h : Sound R s) (n : Nat) : Sound R { s with free := n } := h

theorem Sound.refill (h : Sound R s) : Sound R (refill s) := by
  unfold Machine.refill
  split
  · split
    · exact (h.with_free _).swapPrintTables.composerFill
    · exact (h.with_free _).composerFill.swapPrintTables
  · exact h.composerFill

theorem Sound.discardPrinting (h : Sound R s) (r : HaltReason) : Sound R (discardPrinting r s) := by
  have hempty : Sound R { s with pen := s.pen.discard } := h.with_pen ⟨Nat.zero_le _, Nat.zero_le _, h.paper.2.2⟩
  unfold Machine.discardPrinting
  dsimp only
  split
  · exact hempty.discardSale.refill.goOn.raisePrinter
  · exact hempty.discardSale.refill

theorem Sound.printDiscard (h : Sound R s) : Sound R (printDiscard s).1 := by
  unfold Machine.printDiscard
  split
  · exact h.discardPrinting _
  · exact h

theorem Sound.printOutside (h : Sound R s) (e : QueueEntry) (bad : Option Reason) : Sound R (printOutside e bad s).1 := by
  obtain ⟨_, hfeed, hsince⟩ := h.paper
  unfold Machine.printOutside
  split
  · exact h
  · split
    · exact h
    · split
      · exact h
      · rename_i hroom
        refine Sound.wakePrinter ?_
        refine h.with_pen ⟨?_, hfeed, hsince⟩
        simp only [queueCapacity] at hroom
        simp only [List.length_append, List.length_singleton]
        omega

/-! ## The pulse budget's commands -/

/-- A grant that leaves the list leaves its cost to the others (R146). -/
theorem Sound.grantExpires (h : Sound R s) : Sound R (grantExpires s) := by
  unfold Machine.grantExpires
  split
  · exact h
  · rename_i g gs hg
    refine Sound.examine ?_
    refine (h.reach _).with_pbu ?_
    have hbudget : grantSum s.pbu.grants ≤ 64 := h.budget
    rw [hg] at hbudget
    have hsum : grantSum (g :: gs) = g.cost + grantSum gs := rfl
    show grantSum gs ≤ 64
    omega

theorem Sound.warningChanges (h : Sound R s) (on : Bool) : Sound R (warningChanges on s) := by
  have hset : Sound R { s with pins := { s.pins with supplyWarning := on }, pbu := { s.pbu with warning := on } } :=
    (h.with_pins _).with_pbu h.budget
  unfold Machine.warningChanges
  split
  · exact h
  · dsimp only
    split
    · exact (hset.raise _).holdImposed.printerWarned
    · have hgone := (hset.raise (.supply on)).holdLifted.printerCleared
      unfold storeCleared
      split <;> exact hgone

/-! ## The tables' commands -/

theorem Sound.with_tbs (h : Sound R s) (t : Tbs) : Sound R { s with tbs := t } := h

theorem Sound.giveUpLoad (h : Sound R s) (n : TableName) (r : TableResult) : Sound R (giveUpLoad n r s) :=
  (h.with_tbs _).raise _

theorem Sound.abortSession (h : Sound R s) (x : Session) (r : TableResult) : Sound R (abortSession x r s) :=
  (h.giveUpLoad _ _).with_tbs _

theorem Sound.tableBegin (h : Sound R s) (name : List Byte) : Sound R (tableBegin name s).1 := by
  unfold Machine.tableBegin
  repeat' split
  all_goals exact h

theorem Sound.tableRecord (h : Sound R s) (entry : List Byte) : Sound R (tableRecord entry s).1 := by
  unfold Machine.tableRecord
  split
  · exact h
  · split
    · exact h
    · exact h.abortSession _ _
    · exact h.with_tbs _

theorem Sound.tableEnd (h : Sound R s) (count : Nat) : Sound R (tableEnd count s).1 := by
  unfold Machine.tableEnd
  split
  · exact h
  · split
    · exact h
    · split
      · exact h.abortSession _ _
      · exact ((h.with_tbs _).with_tbs _).trySwap _

theorem Sound.sessionIdle (h : Sound R s) : Sound R (sessionIdle s) := by
  unfold Machine.sessionIdle
  split
  · exact h
  · exact (h.reach _).abortSession _ _

theorem Sound.tableCancel (h : Sound R s) (name : List Byte) : Sound R (tableCancel name s).1 := by
  unfold Machine.tableCancel
  split
  · exact h
  · split
    · unfold closeSessionOf
      split
      · exact (h.giveUpLoad _ _).with_tbs _
      · exact h.giveUpLoad _ _
    · exact h.giveUpLoad _ _
    · exact h

theorem Sound.tableRead (h : Sound R s) (name : List Byte) (index : Nat) : Sound R (tableRead name index s).1 := by
  unfold Machine.tableRead
  repeat' split
  all_goals exact h

theorem Sound.lineRead (h : Sound R s) (p : SalePlace) (n : Nat) : Sound R (lineRead p n s).1 := by
  unfold Machine.lineRead
  repeat' split
  all_goals exact h

/-! ## The lane link's commands -/

theorem Sound.startupTimer (h : Sound R s) : Sound R (startupTimer s) := by
  unfold Machine.startupTimer
  split
  · rename_i due _
    split
    · have hon := h.with_lli (l := { s.lli with startupDue := some (due + 1000000) }) h.link rfl h.2
      exact (hon.reach due).raise _
    · exact h
  · exact h

theorem Sound.laneStart (h : Sound R s) : Sound R (laneStart s).1 := by
  obtain ⟨hreq, hres, hups, hvisit, hqueue, hn⟩ := h.link
  unfold Machine.laneStart
  dsimp only [okay]
  split
  · exact h
  · exact h.with_lli ⟨hreq, hres, hups, hvisit, hqueue, ascending_filter _ hn⟩ rfl h.2

theorem Sound.setNoticeMask (h : Sound R s) (flags : Vector Bool 15) : Sound R (setNoticeMask flags s).1 :=
  h.with_lli (l := { s.lli with mask := flags }) h.link rfl h.2

theorem Sound.readEvents (h : Sound R s) : Sound R (readEvents s).1 := by
  obtain ⟨hreq, hres, hups, hvisit, hqueue, _⟩ := h.link
  have hcleared := h.with_lli (l := { s.lli with notices := [] }) ⟨hreq, hres, hups, hvisit, hqueue, trivial⟩ rfl h.2
  exact hcleared.with_quiet_acp rfl rfl

theorem Sound.setParamNamed (h : Sound R s) (name : List Byte) (v : BitVec 32) : Sound R (setParamNamed name v s).1 := by
  unfold Machine.setParamNamed
  split
  · exact h
  · exact h.setParam _ v

theorem Sound.getParam (h : Sound R s) (name : List Byte) : Sound R (getParam name s).1 := by
  unfold Machine.getParam
  split <;> exact h

theorem Sound.controllerReset (h : Sound R s) : Sound R (controllerReset s).1 :=
  h.with_lli (l := { s.lli with resetAnswer := .waiting }) h.link rfl h.2

theorem Sound.laneStatus (h : Sound R s) : Sound R (laneStatus s).1 :=
  h.with_lli (l := { s.lli with linkError := false }) h.link rfl h.2

end

/-! ## Receiving -/

theorem Kept.with_receiver {s : State} (h : Kept s) (p : RxPhase) (n : Nat) (b c : List Byte) :
    Kept { s with lli := { s.lli with phase := p, rxLength := n, rxBody := b, rxCheck := c } } := h

theorem Kept.discardFrame {s : State} (h : Kept s) : Kept (discardFrame s) := h

theorem Kept.takeFrame {s : State} (h : Kept s) (f : Frame) : Kept (takeFrame f s) := by
  unfold Machine.takeFrame
  split
  · exact h.arriveRequest _ _
  · split
    · exact (h.sound.downArrives _ _ _).kept
    · exact h

theorem Kept.receiveByte {s : State} (h : Kept s) (b : Byte) : Kept (receiveByte s b) := by
  unfold Machine.receiveByte
  split
  · split <;> exact h
  · split
    · exact h
    · exact h.discardFrame
  · exact h
  · split
    · exact h
    · unfold endFrame
      split
      · exact Kept.takeFrame (s := { s with lli := s.lli.hunt }) h _
      · exact h.discardFrame

theorem Kept.receive {s : State} (h : Kept s) (bytes : List Byte) : Kept (receive bytes s) :=
  List.foldlRecOn bytes Machine.receiveByte h fun _ ht b _ => ht.receiveByte b

/-! ## Resets -/

/-- The reset values meet every invariant, whatever stood before (R188). -/
theorem resetValues_sound (c : ResetCause) (pins : Pins) (s : State) : Sound [] (resetValues c pins s) := by
  refine ⟨⟨Nat.zero_le _, ⟨Nat.zero_le _, Nat.zero_le _, Nat.zero_le _, fun _ => (show 0 < 24 by decide), Nat.zero_le _, trivial⟩,
    ⟨Nat.zero_le _, Nat.zero_le _, Nat.zero_le _⟩,
    ⟨Nat.zero_le _, fun p hp => (by cases hp), fun p hp => (by cases hp), fun p hp => (by cases hp)⟩, ?_,
    ⟨Nat.zero_le _, Nat.zero_le _, Nat.zero_le _, fun hf => (by cases hf)⟩⟩, rfl⟩
  have hdefaults : (resetValues c pins s).lli.params = Params.defaults := rfl
  unfold ParamsKept
  rw [hdefaults]
  decide

theorem Sound.raiseIf {R : List Response} {s : State} (h : Sound R s) (b : Bool) {f : State → State}
    (hf : Sound R (f s)) : Sound R (raiseIf b f s) := by
  unfold Machine.raiseIf
  split
  · exact hf
  · exact h

theorem resetPart_kept (c : ResetCause) (pins : Pins) (s : State) : Kept (resetPart c pins s) := by
  have hstartup := (resetValues_sound c pins s).raise (.startup c)
  have hstore := hstartup.raiseIf ((resetValues c pins s).sst.state == .damaged) (hstartup.raise (.store .damaged))
  have hsupply := hstore.raiseIf (resetValues c pins s).pbu.warning (hstore.raise (.supply true))
  have hdrawer := hsupply.raiseIf (resetValues c pins s).tlc.switchOpen (hsupply.raiseDrawer none)
  exact (hdrawer.raiseIf ((resetValues c pins s).pen.state != .idle) hdrawer.raisePrinter).kept.pump

theorem Kept.writeEnds {s : State} (h : Kept s) (how : WriteEnd) (pins : Pins) : Kept (writeEnds how pins s) := by
  unfold Machine.writeEnds
  split
  · exact h
  · split
    · exact resetPart_kept _ _ _
    · exact ((h.sound.endWrite how _).nextWrite).kept.finish _

theorem Kept.idleTransmitter {s : State} (h : Kept s) (f : Option TxFrame) (a : ResetAnswer) :
    Kept { s with lli := { s.lli with sending := f, resetAnswer := a } } := h

/-- The frame is the response of CONTROLLER_RESET, whose sending lets the link reset take effect (R188). -/
def TxFrame.answersReset : TxFrame → Bool
  | .response r => r.ofReset
  | .notice _ => false
  | .accUp _ => false

theorem transmitEnd_idle {s : State} (h : s.lli.sending = none) : transmitEnd s = s := by
  unfold Machine.transmitEnd
  rw [h]

/-- What the end of a frame does (R194, R188). -/
theorem transmitEnd_sent {s : State} {f : TxFrame} (h : s.lli.sending = some f) :
    transmitEnd s =
      if f.answersReset then
        if s.sst.inFlight.isNone then resetPart .link s.pins { s with lli := { s.lli with sending := none } }
        else { s with lli := { s.lli with sending := none, resetAnswer := .sent } }
      else pump { s with lli := { s.lli with sending := none } } := by
  unfold Machine.transmitEnd
  rw [h]
  cases f <;> rfl

theorem Kept.transmitEnd {s : State} (h : Kept s) : Kept (transmitEnd s) := by
  have hidle := h.idleTransmitter none s.lli.resetAnswer
  cases hsend : s.lli.sending with
  | none => rw [transmitEnd_idle hsend]; exact h
  | some f =>
    rw [transmitEnd_sent hsend]
    split
    · split
      · exact resetPart_kept _ _ _
      · exact h
    · exact hidle.pump

theorem Kept.gap {s : State} (h : Kept s) : Kept (if s.lli.phase = .hunt then s else Machine.discardFrame s) := by
  split
  · exact h
  · exact h.discardFrame

theorem Kept.impossible {s : State} (h : Kept s) (length : Byte) : Kept (impossibleLength length s) := by
  unfold impossibleLength
  split
  · exact h.discardFrame
  · exact h

/-! ## The switches -/

section
variable {R : List Response} {s : State}

theorem Sound.drawerOpens (h : Sound R s) : Sound R (if s.tlc.switchOpen then s else Machine.drawerOut (Machine.setSwitch true s)) := by
  split
  · exact h
  · exact (h.setSwitch true).drawerOut

theorem Sound.drawerCloses (h : Sound R s) : Sound R (if s.tlc.switchOpen then Machine.drawerIn (Machine.setSwitch false s) else s) := by
  split
  · exact (h.setSwitch false).drawerIn
  · exact h

theorem Sound.homeChanges (h : Sound R s) (home : Bool) :
    Sound R (if s.pen.home = home then s else if home then Machine.homeShown s else Machine.awayShown s) := by
  split
  · exact h
  · split
    · exact h.homeShown
    · exact h.awayShown

end

/-! ## The step -/

/-- Every command keeps the invariants: an event by its block's work, a request by its block's answer at the router. -/
theorem exec_kept {i : Instr} {s t : State} (h : Kept s) (ht : exec i s = .next t) : Kept t := by
  cases i with
  | powerReset pins =>
    cases ht
    exact resetPart_kept _ _ _
  | pinReset pins =>
    change execPinReset pins s = .next t at ht
    unfold execPinReset at ht
    split at ht <;> cases ht
    · exact h
    · exact resetPart_kept _ _ _
  | resetAfterWrite how pins =>
    change execResetAfterWrite how pins s = .next t at ht
    unfold execResetAfterWrite at ht
    split at ht <;> cases ht
    · exact h.writeEnds how pins
    · exact h
  | linkReset pins =>
    change execLinkReset pins s = .next t at ht
    unfold execLinkReset at ht
    split at ht <;> cases ht
    · exact resetPart_kept _ _ _
    · exact h
  | startupTimer => exact Kept.event (h.sound.startupTimer).kept ht
  | laneFrameReceived bytes => exact (h.receive bytes).event ht
  | receiveGapTimeout => exact Kept.event h.gap ht
  | unknownRequest tag payload =>
    change execUnknownRequest tag payload s = .next t at ht
    unfold execUnknownRequest at ht
    split at ht
    · exact h.request (fun _ _ x => x) ht
    · cases ht
      exact h
  | transmitEnd =>
    cases ht
    exact h.transmitEnd
  | controllerReset tag =>
    cases ht
    exact (Kept.route (fun _ _ x => x.controllerReset) h _ _ _).finish s
  | laneStart tag => exact h.request (fun _ _ x => x.laneStart) ht
  | setNoticeMask tag flags => exact h.request (fun _ _ x => x.setNoticeMask flags) ht
  | readEvents tag => exact h.request (fun _ _ x => x.readEvents) ht
  | setParam tag name v => exact h.request (fun _ _ x => x.setParamNamed name v) ht
  | getParam tag name => exact h.request (fun _ _ x => x.getParam name) ht
  | laneStatus tag => exact h.request (fun _ _ x => x.laneStatus) ht
  | sample v => exact Kept.event (h.sound.sampleRead v).kept ht
  | converterWatch => exact Kept.event (h.sound.watchExpires).kept ht
  | zeroTrackingExpiry => exact Kept.event (h.sound.trackingExpires).kept ht
  | captureTimerExpiry => exact Kept.event (h.sound.captureTimeout).kept ht
  | disturbanceWindowClose => exact Kept.event (h.sound.windowCloses).kept ht
  | weighRestart tag => exact h.request (fun _ _ x => x.weighRestart) ht
  | weighZero tag => exact h.request (fun _ _ x => x.weighZero) ht
  | weighTare tag => exact h.request (fun _ _ x => x.weighTare) ht
  | weighPresetTare tag grams => exact h.request (fun _ _ x => x.weighPresetTare grams) ht
  | weighClearTare tag => exact h.request (fun _ _ x => x.weighClearTare) ht
  | weighCapture tag plu => exact h.request (fun _ _ x => x.weighCapture tag plu) ht
  | weighCancel tag => exact h.request (fun _ _ x => x.weighCancel) ht
  | weighTestOn tag offset => exact h.request (fun _ _ x => x.weighTestOn offset) ht
  | weighTestOff tag => exact h.request (fun _ _ x => x.weighTestOff) ht
  | weighRead tag => exact h.request (fun _ _ x => x) ht
  | calibrationSwitchChange closed => exact Kept.event (h.sound.calSwitchChanges closed).kept ht
  | calEnter tag => exact h.request (fun _ _ x => x.calEnter) ht
  | calLeave tag => exact h.request (fun _ _ x => x.calLeave) ht
  | calZero tag => exact h.request (fun _ _ x => x.calZero) ht
  | calSpan tag mcal => exact h.request (fun _ _ x => x.calSpan mcal) ht
  | calRanges tag max1 e1 max e2 => exact h.request (fun _ _ x => x.calRanges max1 e1 max e2) ht
  | calStepTimeout => exact Kept.event (h.sound.stepTimeout).kept ht
  | calCommit tag => exact h.request (fun _ _ x => x.calCommit) ht
  | storeRead tag => exact h.request (fun _ _ x => x) ht
  | writeComplete =>
    cases ht
    exact h.writeEnds _ _
  | writeTimeout =>
    cases ht
    exact h.writeEnds _ _
  | saleOpen tag => exact h.request (fun _ _ x => x.saleOpen) ht
  | itemAdd tag plu quantity => exact h.request (fun _ _ x => x.itemAdd plu quantity) ht
  | itemText tag text amount => exact h.request (fun _ _ x => x.itemText text amount) ht
  | lineVoid tag line => exact h.request (fun _ _ x => x.lineVoid line) ht
  | referralAnswerAccept tag line price => exact h.request (fun _ _ x => x.referralAccept line price) ht
  | referralAnswerReject tag line => exact h.request (fun _ _ x => x.referralReject line) ht
  | referralTimerExpiry line => exact Kept.event (h.sound.referralExpires line).kept ht
  | tenderCash tag amount => exact h.request (fun _ _ x => x.tenderCash amount) ht
  | tenderCard tag amount serial => exact h.request (fun _ _ x => x.tenderCard amount serial) ht
  | cardApprove tag code => exact h.request (fun _ _ x => x.cardApprove code) ht
  | cardDecline tag => exact h.request (fun _ _ x => x.cardDecline) ht
  | authorizationTimeout => exact Kept.event (h.sound.authExpires).kept ht
  | saleSuspend tag => exact h.request (fun _ _ x => x.saleSuspend) ht
  | saleResume tag => exact h.request (fun _ _ x => x.saleResume) ht
  | saleAbort tag => exact h.request (fun _ _ x => x.saleAbort) ht
  | noSale tag => exact h.request (fun _ _ x => x.noSale) ht
  | saleRead tag => exact h.request (fun _ _ x => x) ht
  | lineRead tag place line => exact h.request (fun _ _ x => x.lineRead place line) ht
  | swipeEnd => exact Kept.event (h.sound.swipeEnds).kept ht
  | cardRecordExpiry => exact Kept.event (h.sound.recordExpires).kept ht
  | cardRead tag => exact h.request (fun _ _ x => x) ht
  | cardRelease tag serial => exact h.request (fun _ _ x => x.cardRelease serial) ht
  | drawerSwitchOpens =>
    change execDrawerSwitchOpens s = .next t at ht
    unfold execDrawerSwitchOpens at ht
    refine Kept.event ?_ ht
    exact (h.sound.drawerOpens).kept
  | drawerSwitchCloses =>
    change execDrawerSwitchCloses s = .next t at ht
    unfold execDrawerSwitchCloses at ht
    refine Kept.event ?_ ht
    exact (h.sound.drawerCloses).kept
  | pulseTimerExpiry => exact Kept.event (h.sound.pulseExpires).kept ht
  | confirmTimerExpiry => exact Kept.event (h.sound.confirmExpires).kept ht
  | overdueTimerExpiry => exact Kept.event (h.sound.overdueExpires).kept ht
  | tillClear tag => exact h.request (fun _ _ x => x.tillClear) ht
  | tillRead tag => exact h.request (fun _ _ x => x) ht
  | phaseEnd => exact Kept.event (h.sound.phaseEnds).kept ht
  | rowEnd => exact Kept.event (h.sound.rowEnds).kept ht
  | feedStepEnd => exact Kept.event (h.sound.feedEnds).kept ht
  | cutterCycleComplete =>
    change execCutterCycleComplete s = .next t at ht
    unfold execCutterCycleComplete at ht
    refine Kept.event ?_ ht
    split
    · exact h.sound.homeShown.kept
    · exact h
  | cutterTimeout => exact Kept.event (h.sound.cutterExpires).kept ht
  | paperOutChange out => exact Kept.event (h.sound.paperOutChanges out).kept ht
  | coverOpenChange opened => exact Kept.event (h.sound.coverOpenChanges opened).kept ht
  | headHotChange hot => exact Kept.event (h.sound.headHotChanges hot).kept ht
  | paperNearEndChange near => exact Kept.event (h.sound.nearEndChanges near).kept ht
  | printResume tag => exact h.request (fun _ _ x => x.printResume) ht
  | printDiscard tag => exact h.request (fun _ _ x => x.printDiscard) ht
  | printText tag text double cut => exact h.request (fun _ _ x => x.printOutside _ _) ht
  | printFeed tag rows => exact h.request (fun _ _ x => x.printOutside _ _) ht
  | printCut tag => exact h.request (fun _ _ x => x.printOutside _ _) ht
  | printRead tag => exact h.request (fun _ _ x => x) ht
  | grantExpiry => exact Kept.event (h.sound.grantExpires).kept ht
  | supplyWarningChange on => exact Kept.event (h.sound.warningChanges on).kept ht
  | budgetRead tag => exact h.request (fun _ _ x => x) ht
  | roundStart => exact Kept.event (h.sound.roundStarts).kept ht
  | accessoryAnswer bytes => exact Kept.event (h.sound.answerArrives bytes).kept ht
  | answerTimeout => exact Kept.event (h.sound.answerMissed).kept ht
  | mirrorTimer => exact Kept.event (h.sound.mirrorExpires).kept ht
  | accessoryRead tag => exact h.request (fun _ _ x => x) ht
  | tableBegin tag name => exact h.request (fun _ _ x => x.tableBegin name) ht
  | tableRecord tag entry => exact h.request (fun _ _ x => x.tableRecord entry) ht
  | tableEnd tag count => exact h.request (fun _ _ x => x.tableEnd count) ht
  | tableIdleTimeout => exact Kept.event (h.sound.sessionIdle).kept ht
  | tableCancel tag name => exact h.request (fun _ _ x => x.tableCancel name) ht
  | tableRead tag name index => exact h.request (fun _ _ x => x.tableRead name index) ht
  | tableStatus tag => exact h.request (fun _ _ x => x) ht
  | stripeFluxTransition k time => exact Kept.event (h.sound.fluxTransition k time).kept ht
  | impossibleFrameLength length => exact Kept.event (h.impossible length) ht
  | cutterHomeSwitchChange home =>
    change execCutterHomeSwitchChange home s = .next t at ht
    unfold execCutterHomeSwitchChange at ht
    refine Kept.event ?_ ht
    exact (h.sound.homeChanges home).kept

/-- Settles O58: a step runs the front command on the invariant's state, or moves the clock alone. -/
theorem everyStepKeepsTheInvariant : Obligations.EveryStepKeepsTheInvariant := by
  unfold Obligations.EveryStepKeepsTheInvariant
  intro s t h ht
  unfold step at ht
  split at ht
  · rename_i rest _
    have hrest : Kept { s with pending := rest } := h
    exact exec_kept hrest ht
  · cases ht
    exact h

end Sys2Proof.Machine
end

section
/-! Proofs about the queue of commands and the router (R193), and the end of an event (R26). -/

namespace Sys2Proof.Machine

open Sys2Proof

/-- Settles O1: both branches of the step. -/
theorem stepRunsTheFrontCommandOrPassesAMicrosecond : Obligations.StepRunsTheFrontCommandOrPassesAMicrosecond := by
  unfold Obligations.StepRunsTheFrontCommandOrPassesAMicrosecond
  refine ⟨fun c rest s h => ?_, fun s h => ?_⟩
  · rw [step, h]
  · simp only [step, h, State.tick]

/-! ## Every request comes to the router -/

/-- A well-formed request passes through the router with its block's answer. -/
theorem exec_routes {i : Instr} {tag : Byte} (ht : i.tag? = some tag) (hw : i.wellFormed = true) :
    ∃ b h, ∀ s, exec i s = .next (finish s (route i tag b h s)) := by
  cases i with
  | unknownRequest tag' payload =>
    cases ht
    have hno : isNoRequest tag payload = true := hw
    rw [isNoRequest, Bool.and_eq_true] at hno
    obtain ⟨_, hno⟩ := hno
    obtain ⟨r, hr⟩ : ∃ r, unknownReason tag payload = some r := by
      unfold unknownReason
      split <;> simp_all
    refine ⟨false, refuse r, fun s => ?_⟩
    change execUnknownRequest tag payload s = _
    rw [execUnknownRequest, hr]
    rfl
  | controllerReset tag' => cases ht; exact ⟨true, _, fun _ => rfl⟩
  | _ => cases ht <;> exact ⟨false, _, fun _ => rfl⟩

/-! ## A request that the router does not take -/

theorem with_requests_works (s : State) (q : List Instr) :
    Works [.requests] [] s { s with lli := { s.lli with requests := q } } :=
  Works.of rfl rfl rfl rfl fun p hp => by
    cases p with
    | requests => exact absurd (List.mem_singleton_self _) hp
    | _ => rfl

theorem linkError_works (s : State) : Works [.link] [] s (linkError s) :=
  Works.of rfl rfl rfl rfl fun p hp => by
    cases p with
    | link => exact absurd (List.mem_singleton_self _) hp
    | _ => rfl

/-- A response that enters the response part leaves every other part alone. -/
theorem respond_changesOnly (r : Response) (s : State) : ChangesOnly [.responses] [] s (respond r s) := by
  refine ⟨rfl, fun p hp => ?_, fun _ _ => ⟨id, .inl⟩⟩
  cases p with
  | responses => exact absurd (List.mem_singleton_self _) hp
  | accessory => exact .inl rfl
  | transmitter => exact fun _ => rfl
  | _ => rfl

theorem arriveRequest_joins {i : Instr} {tag : Byte} {s : State} (h : s.lli.requests.length < 8) :
    arriveRequest i tag s = { s with lli := { s.lli with requests := s.lli.requests ++ [i] } } := if_pos h

theorem arriveRequest_busy {i : Instr} {tag : Byte} {s : State} (h : 8 ≤ s.lli.requests.length)
    (hr : s.lli.responses.length < 8) : arriveRequest i tag s = respond ⟨tag, .refused .busyLink, [], false⟩ s := by
  rw [arriveRequest, if_neg (by omega), if_pos hr]

theorem arriveRequest_drops {i : Instr} {tag : Byte} {s : State} (h : 8 ≤ s.lli.requests.length)
    (hr : 8 ≤ s.lli.responses.length) : arriveRequest i tag s = linkError s := by
  rw [arriveRequest, if_neg (by omega), if_neg (by omega)]

theorem route_closed {i : Instr} {tag : Byte} {b : Bool} {h : State → State × Reply} {s : State}
    (hq : s.lli.requests = []) (hc : routerOpen s = false) : route i tag b h s = arriveRequest i tag s := by
  simp [route, hq, hc]

theorem route_behind {i r : Instr} {rest : List Instr} {tag : Byte} {b : Bool} {h : State → State × Reply} {s : State}
    (hq : s.lli.requests = r :: rest) (hr : r ≠ i) : route i tag b h s = arriveRequest i tag s := by
  simp [route, hq, hr]

theorem route_waits {i : Instr} {rest : List Instr} {tag : Byte} {b : Bool} {h : State → State × Reply} {s : State}
    (hq : s.lli.requests = i :: rest) (hc : routerOpen s = false) : route i tag b h s = s := by
  simp [route, hq, hc]

/-- A command that does a piece of work which leaves the channel alone, and then ends its event. -/
theorem does_finish {i : Instr} {s x : State} {ps : List Part} {P : State → Prop} (he : exec i s = .next (finish s x))
    (hc : ChangesOnly ps [] s x) (hw : x.wch = s.wch) (ht : x.lli.sending = s.lli.sending) (ha : x.acp = s.acp)
    (hP : P (finish s x)) : Does i s ps [] P :=
  ⟨_, he, hc.finished (.inl (by rw [hw])) (fun _ => ht) (fun _ _ => ha), hP⟩

theorem refuses_unknown {tag : Byte} {payload : List Byte} {r : Reason} (h : unknownReason tag payload = some r)
    (s : State) : Refuses (.unknownRequest tag payload) tag s r := by
  refine refuses_of (h := refuse r) ?_ fun _ _ => rfl
  change execUnknownRequest tag payload s = _
  rw [execUnknownRequest, h]

/-- Settles O2: the ways of a request that the router does not take, then the three kinds of payload that are no request. -/
theorem requestsQueueOrAreRefusedByTheRouter : Obligations.RequestsQueueOrAreRefusedByTheRouter := by
  unfold Obligations.RequestsQueueOrAreRefusedByTheRouter
  refine ⟨fun i tag s ht hw => ?_, fun tag payload s => ⟨fun h => ?_, fun h => ?_, fun h => ?_⟩⟩
  · obtain ⟨b, h, he⟩ := exec_routes ht hw
    refine ⟨fun hq hc => ?_, fun r rest hq hr hroom => ?_, fun r rest hq hr hfull hroom => ?_,
      fun r rest hq hr hfull hnone => ?_, fun rest hq hc => ?_⟩
    · have hx := he s
      rw [route_closed hq hc, arriveRequest_joins (by rw [hq]; decide)] at hx
      refine does_finish hx (with_requests_works s _).changesOnly rfl rfl rfl ?_
      rw [finish_requests]
      simp [hq]
    · have hx := he s
      rw [route_behind hq hr, arriveRequest_joins hroom] at hx
      refine does_finish hx (with_requests_works s _).changesOnly rfl rfl rfl ?_
      rw [finish_requests]
    · have hx := he s
      rw [route_behind hq hr, arriveRequest_busy hfull hroom] at hx
      refine does_finish hx (respond_changesOnly _ s) rfl rfl rfl ?_
      rw [Answered, finish_upstream]
      simp [respond, Lli.upstream]
    · have hx := he s
      rw [route_behind hq hr, arriveRequest_drops hfull hnone] at hx
      refine does_finish hx (linkError_works s).changesOnly rfl rfl rfl ?_
      rw [finish_settings]
      rfl
    · have hx := he s
      rw [route_waits hq hc] at hx
      exact does_finish hx (Works.refl [] [] s).changesOnly rfl rfl rfl trivial
  · exact refuses_unknown (by rw [unknownReason, h]) s
  · exact refuses_unknown (by rw [unknownReason, h]) s
  · exact ⟨_, refuses_unknown (by rw [unknownReason, h]) s⟩

/-! ## The end of every event (R26) -/

theorem writeEnds_finishes {s : State} (how : WriteEnd) (pins : Pins) (ha : s.lli.awaited = none) :
    writeEnds how pins s = s ∨ ∃ x, writeEnds how pins s = finish s x := by
  unfold writeEnds
  split
  · exact .inl rfl
  · rw [ha]
    exact .inr ⟨_, rfl⟩

/-- A command that neither resets the part nor ends a frame changes nothing, or ends its event as every event ends. -/
theorem exec_finishes {i : Instr} {s t : State}
    (hr : ∀ pins, i ≠ .powerReset pins ∧ i ≠ .pinReset pins ∧ i ≠ .linkReset pins) (hx : i ≠ .transmitEnd)
    (ha : s.lli.awaited = none) (ht : exec i s = .next t) : t = s ∨ ∃ x, t = finish s x := by
  cases i with
  | powerReset pins => exact absurd rfl (hr pins).1
  | pinReset pins => exact absurd rfl (hr pins).2.1
  | linkReset pins => exact absurd rfl (hr pins).2.2
  | transmitEnd => exact absurd rfl hx
  | resetAfterWrite how pins =>
    change execResetAfterWrite how pins s = .next t at ht
    rw [execResetAfterWrite, ha, if_neg (by decide)] at ht
    cases ht
    exact .inl rfl
  | unknownRequest tag payload =>
    change execUnknownRequest tag payload s = .next t at ht
    unfold execUnknownRequest at ht
    split at ht <;> cases ht
    · exact .inr ⟨_, rfl⟩
    · exact .inl rfl
  | writeComplete => cases ht; exact writeEnds_finishes _ _ ha
  | writeTimeout => cases ht; exact writeEnds_finishes _ _ ha
  | _ => cases ht; exact .inr ⟨_, rfl⟩

/-- Settles O3: the end of the event compares the channel with what it was, and raises WEIGHT for a change. -/
theorem weightRaisedForEveryChange : Obligations.WeightRaisedForEveryChange := by
  unfold Obligations.WeightRaisedForEveryChange
  intro i s t hr hx ha ht hd
  rcases exec_finishes hr hx ha ht with rfl | ⟨x, rfl⟩
  · exact absurd rfl hd
  · rw [finish_wch] at hd ⊢
    exact notified_weight hd

end Sys2Proof.Machine
end

section
/-! Proofs about the resets (R188, R54, R56): what every reset leaves, and the store that its check finds. -/

namespace Sys2Proof.Machine

open Sys2Proof

/-! ## What a reset raises (R188, R189) -/

theorem raiseDrawer_eq (a : Option Auth) (s : State) :
    raiseDrawer a s = raise (.drawer s.tlc.state s.tlc.state.flagged a) s := by
  unfold raiseDrawer
  cases s.tlc.state <;> rfl

/-- The notices that stand after a reset besides STARTUP, which is being sent: in ascending number SUPPLY, DRAWER, PRINTER
and STORE, each where the reset's own values call for it. -/
def resetPending (s : State) : List Notice :=
  (if s.pbu.warning then [.supply true] else []) ++
  (if s.tlc.switchOpen then [.drawer s.tlc.state s.tlc.state.flagged none] else []) ++
  (if s.pen.state != .idle then [.printer s.pen.state s.pen.nearEnd] else []) ++
  (if s.sst.state == .damaged then [.store .damaged] else [])

theorem raiseResetNotices_eq (c : ResetCause) {s : State} (h : s.lli.notices = []) :
    raiseResetNotices c s = { s with lli := { s.lli with notices := .startup c :: resetPending s } } := by
  rw [raiseResetNotices, show raiseDrawer none = fun s => raise (.drawer s.tlc.state s.tlc.state.flagged none) s from
    funext (raiseDrawer_eq none)]
  unfold resetPending raiseIf raisePrinter raise
  by_cases hw : s.pbu.warning <;> by_cases ho : s.tlc.switchOpen <;> by_cases hp : s.pen.state = .idle <;>
    by_cases hd : s.sst.state = .damaged <;>
    simp [hw, ho, hp, hd, h, insertNotice, Notice.kind]

theorem resetPending_kind {s : State} {n : Notice} (h : n ∈ resetPending s) : n.kind ≠ 1 := by
  unfold resetPending at h
  simp only [List.mem_append, List.mem_ite_nil_right, List.mem_singleton] at h
  rcases h with ((⟨_, rfl⟩ | ⟨_, rfl⟩) | ⟨_, rfl⟩) | ⟨_, rfl⟩ <;> simp [Notice.kind]

/-- A reset as a whole: every block's reset values, STARTUP being sent, and the other notices pending. -/
theorem resetPart_eq (c : ResetCause) (pins : Pins) (s : State) :
    resetPart c pins s = { resetValues c pins s with
      lli := Lli.afterReset c s.clock (some (.notice (.startup c))) (resetPending (resetValues c pins s)) } := by
  have hfilter : (resetPending (resetValues c pins s)).filter (fun m => m.kind != 1) =
      resetPending (resetValues c pins s) :=
    List.filter_eq_self.mpr fun n hn => by simpa using resetPending_kind hn
  have henabled : enabled (Vector.replicate 15 true) (.startup c) = true := rfl
  have hkind : (Notice.startup c).kind = 1 := rfl
  unfold resetPart
  rw [raiseResetNotices_eq c rfl]
  generalize hq : resetPending (resetValues c pins s) = q at hfilter ⊢
  unfold pump chooseFrame resetValues Lli.afterReset
  simp only [Option.isSome_none, List.find?_cons, henabled]
  simp [hkind, hfilter, isAccessory]

section
variable {c : ResetCause} {pins : Pins} {s : State}

theorem resetPart_drawer (h : pins.drawerOpen = true) :
    Notified (resetPart c pins s) (.drawer (.opened false (s.clock + 30000000)) false none) := by
  rw [resetPart_eq]
  refine .inl ?_
  show _ ∈ resetPending _
  simp [resetPending, resetValues, Tlc.afterReset, h, DrawerState.flagged]

theorem resetPart_printer (h : PrinterState.afterReset pins ≠ .idle) :
    Notified (resetPart c pins s) (.printer (PrinterState.afterReset pins) pins.nearEnd) := by
  rw [resetPart_eq]
  refine .inl ?_
  show _ ∈ resetPending _
  simp [resetPending, resetValues, Pen.afterReset, h]

theorem resetPart_supply (h : pins.supplyWarning = true) : Notified (resetPart c pins s) (.supply true) := by
  rw [resetPart_eq]
  refine .inl ?_
  show _ ∈ resetPending _
  simp [resetPending, resetValues, Pbu.afterReset, h]

theorem resetPart_store (h : s.sst.checked.state = .damaged) : Notified (resetPart c pins s) (.store .damaged) := by
  rw [resetPart_eq]
  refine .inl ?_
  show _ ∈ resetPending _
  simp [resetPending, resetValues, h]

/-- Every notice pending after a reset comes from its own checks and input levels. -/
theorem resetPart_notices {n : Notice} (h : n ∈ (resetPart c pins s).lli.notices) :
    (n = .supply true ∧ pins.supplyWarning = true) ∨
    (n = .drawer (resetPart c pins s).tlc.state false none ∧ pins.drawerOpen = true) ∨
    (n = .printer (resetPart c pins s).pen.state pins.nearEnd ∧ (resetPart c pins s).pen.state ≠ .idle) ∨
    (n = .store .damaged ∧ (resetPart c pins s).sst.state = .damaged) := by
  rw [resetPart_eq] at h ⊢
  change n ∈ resetPending _ at h
  unfold resetPending at h
  simp only [List.mem_append, List.mem_ite_nil_right, List.mem_singleton] at h
  rcases h with ((⟨hw, rfl⟩ | ⟨ho, rfl⟩) | ⟨hp, rfl⟩) | ⟨hd, rfl⟩
  · exact .inl ⟨rfl, hw⟩
  · have hopen : pins.drawerOpen = true := ho
    refine .inr (.inl ⟨?_, hopen⟩)
    simp [resetValues, Tlc.afterReset, hopen, DrawerState.flagged]
  · exact .inr (.inr (.inl ⟨rfl, by simpa using hp⟩))
  · exact .inr (.inr (.inr ⟨rfl, by simpa using hd⟩))

theorem printerAfterReset_eq (pins : Pins) :
    PrinterState.afterReset pins =
      if pins.cutterHome = false then .halted .cutter
      else if pins.coverOpen then .halted .coverOpen
      else if pins.paperOut then .halted .paperOut
      else if pins.supplyWarning then .halted .supply
      else .idle := by
  unfold PrinterState.afterReset
  simp only [Bool.not_eq_true']

theorem units_after_reset (n : Nat) (clock : Nat) :
    ((Acp.afterReset clock).units.get n).presence = .unknown ∧ ((Acp.afterReset clock).units.get n).misses = 0 := by
  unfold Units.get
  split <;> exact ⟨rfl, rfl⟩

/-- A reset leaves what the statements ask of every reset (R188). -/
theorem resetPart_resetTo (c : ResetCause) (pins : Pins) (s : State) : ResetTo c pins s (resetPart c pins s) := by
  have hnotices := fun n (h : n ∈ (resetPart c pins s).lli.notices) => resetPart_notices h
  have hdrawer : pins.drawerOpen = true →
      Notified (resetPart c pins s) (.drawer (resetPart c pins s).tlc.state false none) := fun h => by
    have := resetPart_drawer (c := c) (s := s) h
    have hstate : (resetPart c pins s).tlc.state = .opened false (s.clock + 30000000) := by
      rw [resetPart_eq]
      simp [resetValues, Tlc.afterReset, h]
    rwa [hstate]
  have hprinter : (resetPart c pins s).pen.state ≠ .idle →
      Notified (resetPart c pins s) (.printer (resetPart c pins s).pen.state pins.nearEnd) := fun h => by
    have hstate : (resetPart c pins s).pen.state = PrinterState.afterReset pins := by rw [resetPart_eq]; rfl
    rw [hstate] at h ⊢
    exact resetPart_printer h
  have hsupply := fun h : pins.supplyWarning = true => resetPart_supply (c := c) (s := s) h
  have hunits := fun n => units_after_reset n s.clock
  have hpen := printerAfterReset_eq pins
  unfold ResetTo
  generalize hr : resetPart c pins s = r at *
  rw [resetPart_eq] at hr
  subst hr
  refine ⟨rfl, rfl, rfl, rfl, rfl, rfl, rfl, rfl, rfl, rfl, rfl, rfl, rfl, rfl, hnotices,
    rfl, rfl, rfl, rfl, rfl, rfl, rfl, rfl, rfl, rfl, rfl, rfl, rfl, rfl, rfl, rfl, rfl, rfl, rfl, rfl, rfl, rfl,
    rfl, rfl, rfl, rfl, rfl, rfl, rfl, rfl, rfl, rfl, rfl, rfl, hdrawer,
    rfl, rfl, rfl, rfl, rfl, rfl, rfl, rfl, rfl, rfl, rfl, rfl, hpen, hprinter, rfl, rfl, rfl, rfl, rfl, rfl, rfl, hsupply,
    rfl, rfl, rfl, rfl, rfl, rfl, rfl, rfl, rfl, rfl, hunits, ?_⟩
  show (if c = .link then s.tbs.afterLink else Tbs.cleared).session = none
  split <;> rfl

theorem resetPart_clock : (resetPart c pins s).clock = s.clock := by rw [resetPart_eq]; rfl

theorem resetPart_nextTag : (resetPart c pins s).sru.nextTag = if c = .link then s.sru.nextTag else 1 := by
  rw [resetPart_eq]; rfl

theorem resetPart_counter : (resetPart c pins s).sdc.counter = if c = .link then s.sdc.counter else 0 := by
  rw [resetPart_eq]; rfl

theorem resetPart_tbs : (resetPart c pins s).tbs = if c = .link then s.tbs.afterLink else Tbs.cleared := by
  rw [resetPart_eq]; rfl

theorem resetPart_sst : (resetPart c pins s).sst = s.sst.checked := by rw [resetPart_eq]; rfl

/-- R54: the check reads the array into the image, and finds it INTACT when its word is right. -/
theorem resetPart_checkedStore (c : ResetCause) (pins : Pins) (s : State) :
    CheckedStore s.sst.array s.sst.word (resetPart c pins s) := by
  unfold CheckedStore
  rw [resetPart_sst]
  exact ⟨rfl, rfl, rfl, rfl, rfl, rfl, resetPart_store⟩

end

/-! ## A write cut off (R54) -/

/-- The integrity word of an array cut off in a write never matches (log 9). -/
theorem tornWord_ne (n : Nat) : integrityWord (tornFigures n) ≠ tornWord n := by
  unfold tornWord
  generalize integrityWord (tornFigures n) = w
  have hlt : Config.tornFigure n 10 % 65535 < 65535 := Nat.mod_lt _ (by decide)
  generalize Config.tornFigure n 10 % 65535 = k at hlt
  intro h
  have := congrArg BitVec.toNat h
  have hone : (1 : BitVec 16).toNat = 1 := rfl
  simp only [BitVec.toNat_add, BitVec.toNat_ofNat, hone] at this
  have hw := w.isLt
  omega

theorem cutOffWrite_idle {s : State} (h : s.sst.inFlight = none) : cutOffWrite s = s := by
  rw [cutOffWrite, h]; rfl

theorem cutOffWrite_damages {s : State} (h : s.sst.inFlight ≠ none) : (cutOffWrite s).sst.checked.state = .damaged := by
  rw [cutOffWrite, if_pos (Option.isSome_iff_ne_none.mpr h)]
  exact if_neg (tornWord_ne _)

theorem resetTo_of_pending {c : ResetCause} {pins : Pins} {s s' t : State} (h : ResetTo c pins s t)
    (hp : s.pending = s'.pending) : ResetTo c pins s' t := by
  obtain ⟨hpending, hrest⟩ := h
  exact ⟨hpending.trans hp, hrest⟩

theorem cutOffWrite_clock (s : State) : (cutOffWrite s).clock = s.clock := by
  unfold cutOffWrite; split <;> rfl

theorem cutOffWrite_pending (s : State) : (cutOffWrite s).pending = s.pending := by
  unfold cutOffWrite; split <;> rfl

/-- Settles O4: a power reset, a pin reset with no write in flight, and a pin reset that waits. -/
theorem powerAndPinResetsRestoreEveryBlock : Obligations.PowerAndPinResetsRestoreEveryBlock := by
  unfold Obligations.PowerAndPinResetsRestoreEveryBlock
  refine ⟨fun pins s => ⟨resetPart .power pins (cutOffWrite s), rfl, ?_⟩, fun pins s => ⟨fun hw => ?_, fun hw => ?_⟩⟩
  · refine ⟨resetTo_of_pending (resetPart_resetTo _ _ _) (cutOffWrite_pending s),
      resetPart_clock.trans (cutOffWrite_clock s), resetPart_nextTag, resetPart_counter, resetPart_tbs, fun hw => ?_,
      fun hw => ⟨?_, resetPart_store (cutOffWrite_damages hw)⟩⟩
    · rw [cutOffWrite_idle hw]
      exact resetPart_checkedStore _ _ _
    · rw [resetPart_sst]
      exact cutOffWrite_damages hw
  · refine ⟨resetPart .pin pins s, ?_, resetPart_resetTo _ _ _, resetPart_clock, resetPart_nextTag, resetPart_counter,
      resetPart_tbs, resetPart_checkedStore _ _ _⟩
    change execPinReset pins s = _
    rw [execPinReset, hw]
    rfl
  · change execPinReset pins s = _
    rw [execPinReset, if_pos (Option.isSome_iff_ne_none.mpr hw)]

/-! ## A reset that waits for a write (R56) -/

theorem writeEnds_awaited {how : WriteEnd} {pins : Pins} {s : State} {w : Write} {c : ResetCause}
    (hw : s.sst.inFlight = some w) (hc : s.lli.awaited = some c) :
    writeEnds how pins s = resetPart c pins (endWrite how w s) := by
  rw [writeEnds, hw]
  simp only [hc]

/-- The end of a write leaves the counters of the sales and of the stripe decoder, and the commands that wait. -/
theorem endWrite_kept (how : WriteEnd) (w : Write) (s : State) :
    (endWrite how w s).pending = s.pending ∧ (endWrite how w s).sru = s.sru ∧ (endWrite how w s).sdc = s.sdc := by
  have hsub : ∀ t : State, ∀ p ∈ Part.store :: t.commitParts, p ∉ [Part.sale, .stripe] := by
    intro t p
    unfold State.commitParts State.slotParts State.holdParts
    split <;> split <;> simp <;> rintro (rfl | rfl | rfl | rfl | rfl | rfl) <;> simp
  unfold endWrite
  split
  · obtain ⟨hp, _, _, hparts, _⟩ := writeDone_works w.data s
    exact ⟨hp, hparts .sale fun h => hsub s _ h (by decide), hparts .stripe fun h => hsub s _ h (by decide)⟩
  · obtain ⟨hp, _, _, hparts, _⟩ := writeFailed_works w (reach w.due s)
    exact ⟨hp, hparts .sale fun h => hsub (reach w.due s) _ h (by decide),
      hparts .stripe fun h => hsub (reach w.due s) _ h (by decide)⟩

theorem endWrite_completed_sst (w : Write) (s : State) : (endWrite .completed w s).sst = s.sst.complete w.data :=
  writeDone_sst w.data s

theorem endWrite_timedOut_sst (w : Write) (s : State) :
    (endWrite .timedOut w s).sst = { s.sst with state := .fault, inFlight := none, pendingTotals := false } :=
  writeFailed_sst w (reach w.due s)

/-- A completed write stands with its integrity word, so the check at the next reset finds it INTACT (R54, R55). -/
theorem complete_checked (t : Sst) (d : WriteData) :
    (t.complete d).checked.array = d.into t.array ∧ (t.complete d).checked.image = (t.complete d).checked.array ∧
    (t.complete d).checked.state = .intact := ⟨rfl, rfl, if_pos rfl⟩

/-- Settles O5: the reset is performed on the state that the end of the write leaves. -/
theorem resetAfterWriteFollowsTheWrite : Obligations.ResetAfterWriteFollowsTheWrite := by
  unfold Obligations.ResetAfterWriteFollowsTheWrite
  refine fun how pins s => ⟨fun w c hw hc => ?_, fun hc => ?_⟩
  · obtain ⟨hpending, hsru, hsdc⟩ := endWrite_kept how w s
    refine ⟨resetPart c pins (endWrite how w s), ?_, resetTo_of_pending (resetPart_resetTo _ _ _) hpending,
      by rw [resetPart_nextTag, hsru], by rw [resetPart_counter, hsdc], fun hh => ?_, fun hh => ?_⟩
    · change execResetAfterWrite how pins s = _
      rw [execResetAfterWrite, if_pos (by rw [hc]; rfl), writeEnds_awaited hw hc]
    · subst hh
      rw [resetPart_sst, endWrite_completed_sst]
      exact complete_checked _ _
    · subst hh
      have hchecked := resetPart_checkedStore c pins (endWrite .timedOut w s)
      rw [endWrite_timedOut_sst] at hchecked
      exact hchecked
  · change execResetAfterWrite how pins s = _
    rw [execResetAfterWrite, hc]
    rfl

/-! ## The state after reset -/

theorem integrityWord_manufactured : integrityWord SealedFigures.manufactured = SealedFigures.manufacturedWord := by
  decide +kernel

theorem checked_manufactured : State.reset.sst.checked = State.reset.sst := by
  show (⟨_, _, _, if integrityWord SealedFigures.manufactured = SealedFigures.manufacturedWord then _ else _, _, _⟩ : Sst) = _
  rw [if_pos integrityWord_manufactured]
  rfl

/-- `State.reset` is the power reset of itself. -/
theorem reset_eq_resetPart : resetPart .power Pins.quiet State.reset = State.reset := by
  have hpending : resetPending (resetValues .power Pins.quiet State.reset) = [] := by
    have hstate : (resetValues .power Pins.quiet State.reset).sst.state = .intact := congrArg Sst.state checked_manufactured
    unfold resetPending
    rw [hstate]
    rfl
  have hsst : (resetValues .power Pins.quiet State.reset).sst = State.reset.sst := checked_manufactured
  rw [resetPart_eq, hpending]
  show { State.reset with sst := (resetValues .power Pins.quiet State.reset).sst } = State.reset
  rw [hsst]

/-- Settles O59: what every reset leaves, read at the state that is its own power reset. -/
theorem resetStateIsAPowerResetAndMeetsTheInvariant : Obligations.ResetStateIsAPowerResetAndMeetsTheInvariant := by
  unfold Obligations.ResetStateIsAPowerResetAndMeetsTheInvariant
  have hreset := resetPart_resetTo .power Pins.quiet State.reset
  have hstore := resetPart_checkedStore .power Pins.quiet State.reset
  have hkept := resetPart_kept .power Pins.quiet State.reset
  rw [reset_eq_resetPart] at hreset hstore hkept
  refine ⟨⟨hreset, rfl, rfl, rfl, ?_⟩, hkept⟩
  rw [integrityWord_manufactured]
  exact hstore

end Sys2Proof.Machine
end

section
/-! Proofs about the lane link (R188 to R196): frames received, the transmitter's choice, the link reset and the notices. -/

namespace Sys2Proof.Machine

open Sys2Proof

/-- A response that follows a block's own work adds the responses to what changes. -/
theorem Works.respond {ps : List Part} {ks : List Nat} {s t : State} (h : Works ps ks s t) (r : Response) :
    ChangesOnly (.responses :: ps) ks s (respond r t) := by
  obtain ⟨hp, hs, hres, hparts, hn⟩ := h
  refine ⟨hp, fun p hpp => ?_, hn⟩
  have h := hparts p fun hm => hpp (List.mem_cons_of_mem _ hm)
  cases p with
  | responses => exact absurd (List.mem_cons_self ..) hpp
  | accessory => exact .inl h
  | transmitter => exact fun _ => hs
  | accFrames => show Lli.upFrames _ = Lli.upFrames _; rw [Lli.upFrames, Lli.upFrames, ← hs, ← show t.lli.accUps = s.lli.accUps from h]; rfl
  | _ => exact h

/-! ## The accessory port at the end of an event -/

theorem pump_acp (s : State) : (pump s).acp = { s.acp with blocked := (pump s).acp.blocked } := by
  rcases pump_cases s with e | ⟨_, _, ⟨_, _, _, e⟩ | ⟨_, _, _, e⟩ | ⟨_, _, _, _, e⟩⟩ <;> rw [e]

/-- The end of an event touches the accessory port in its count of blocked scans alone (R165). -/
theorem finish_acp (a s : State) : (finish a s).acp = { s.acp with blocked := (finish a s).acp.blocked } := by
  rcases finish_eq a s with e | e <;> rw [e] <;> exact pump_acp _

@[simp] theorem finish_acp_units (a s : State) : (finish a s).acp.units = s.acp.units := by rw [finish_acp]
@[simp] theorem finish_acp_queue (a s : State) : (finish a s).acp.queue = s.acp.queue := by rw [finish_acp]
@[simp] theorem finish_acp_visit (a s : State) : (finish a s).acp.visit = s.acp.visit := by rw [finish_acp]
@[simp] theorem finish_acp_roundDue (a s : State) : (finish a s).acp.roundDue = s.acp.roundDue := by rw [finish_acp]
@[simp] theorem finish_acp_later (a s : State) : (finish a s).acp.later = s.acp.later := by rw [finish_acp]
@[simp] theorem finish_acp_held (a s : State) : (finish a s).acp.held = s.acp.held := by rw [finish_acp]
@[simp] theorem finish_acp_mirrorDue (a s : State) : (finish a s).acp.mirrorDue = s.acp.mirrorDue := by rw [finish_acp]
@[simp] theorem finish_acp_lastSent (a s : State) : (finish a s).acp.lastSent = s.acp.lastSent := by rw [finish_acp]

/-! ## The receive assembler (R191) -/

/-- The state with the receive assembler in this phase, with the length, the bytes and the check bytes that it holds. -/
def receiver (p : RxPhase) (length : Nat) (body check : List Byte) (s : State) : State :=
  { s with lli := { s.lli with phase := p, rxLength := length, rxBody := body, rxCheck := check } }

theorem receiver_works (p : RxPhase) (length : Nat) (body check : List Byte) (s : State) :
    Works [.link] [] s (receiver p length body check s) :=
  Works.of rfl rfl rfl rfl fun p hp => by
    cases p with
    | link => exact absurd (List.mem_singleton_self _) hp
    | _ => rfl

theorem discardFrame_eq (s : State) : discardFrame s = linkError (receiver .hunt 0 [] [] s) := rfl

/-- The bytes of the body gather until there are as many as the length byte said. -/
theorem receive_body {n : Nat} {s : State} {rest : List Byte} :
    ∀ done, rest ≠ [] → done.length + rest.length = n →
      receive rest (receiver .body n done [] s) = receiver .check n (done ++ rest) [] s := by
  induction rest with
  | nil => exact fun _ h => absurd rfl h
  | cons b rest ih =>
    intro done _ hlen
    rw [List.length_cons] at hlen
    show receive rest (receiver (if done.length + 1 < n then .body else .check) n (done ++ [b]) [] s) = _
    cases rest with
    | nil =>
      rw [if_neg (by simp at hlen; omega)]
      rfl
    | cons c rest =>
      rw [if_pos (by simp at hlen; omega), ih _ (by simp) (by simp at hlen ⊢; omega)]
      simp

/-- A whole frame arrives while the assembler hunts: its check decides. -/
theorem receive_frame {body : List Byte} {s : State} (hs : s.lli.phase = .hunt) (hmin : 3 ≤ body.length)
    (hmax : body.length ≤ 253) (c d : Byte) :
    receive (0xA5 :: BitVec.ofNat 8 body.length :: body ++ [c, d]) s =
      if checkGood body.length body [c, d] then takeFrame (frameOf body) (receiver .hunt 0 [] [] s)
      else linkError (receiver .hunt 0 [] [] s) := by
  have hlength : (BitVec.ofNat 8 body.length).toNat = body.length := by rw [BitVec.toNat_ofNat]; omega
  have hstart : receiveByte s 0xA5 = { s with lli := { s.lli with phase := .length } } := by
    rw [receiveByte, hs]
    rfl
  have hcount : receiveByte { s with lli := { s.lli with phase := .length } } (BitVec.ofNat 8 body.length) =
      receiver .body body.length [] [] s := by
    unfold receiveByte
    simp only [hlength, if_pos (show 3 ≤ body.length ∧ body.length ≤ 253 from ⟨hmin, hmax⟩)]
    rfl
  have hbody : receive body (receiver .body body.length [] [] s) = receiver .check body.length body [] s :=
    receive_body [] (fun h => by rw [h] at hmin; exact absurd hmin (by decide)) (by simp)
  unfold receive at hbody ⊢
  rw [List.cons_append, List.cons_append, List.foldl_cons, List.foldl_cons, hstart, hcount, List.foldl_append, hbody]
  show (if checkGood body.length body [c, d] then _ else _) = _
  rfl

/-- The frame of R190 that a terminal sends is taken by its unit and kind. -/
theorem receive_frameBytes {unit kind : Nat} {tag : Byte} {payload : List Byte} {s : State} (hs : s.lli.phase = .hunt)
    (hlen : payload.length ≤ 250) (hu : unit < 256) (hk : kind < 256) :
    receive (frameBytes unit kind tag payload) s = takeFrame ⟨unit, kind, tag, payload⟩ (receiver .hunt 0 [] [] s) := by
  have h := receive_frame (body := BitVec.ofNat 8 unit :: BitVec.ofNat 8 kind :: tag :: payload) hs (by simp)
    (by simp; omega)
  unfold frameBytes
  simp only [natBytes]
  refine (h _ _).trans ?_
  rw [if_pos (by simp [checkGood, natBytes])]
  congr 1
  simp [frameOf, Nat.mod_eq_of_lt hu, Nat.mod_eq_of_lt hk]

theorem takeFrame_request (tag : Byte) (payload : List Byte) (s : State) :
    takeFrame ⟨0, 1, tag, payload⟩ s = arriveRequest (parseRequest tag payload) tag s := if_pos ⟨rfl, rfl⟩

theorem takeFrame_down {unit : Nat} (h : 1 ≤ unit ∧ unit ≤ 4) (tag : Byte) (payload : List Byte) (s : State) :
    takeFrame ⟨unit, 4, tag, payload⟩ s = downArrives unit tag payload s := by
  rw [takeFrame, if_neg (by simp), if_pos ⟨h.1, h.2, rfl⟩]

theorem takeFrame_other {unit kind : Nat} (h : ¬(unit = 0 ∧ kind = 1)) (h' : ¬(1 ≤ unit ∧ unit ≤ 4 ∧ kind = 4)) (tag : Byte)
    (payload : List Byte) (s : State) : takeFrame ⟨unit, kind, tag, payload⟩ s = linkError s := by
  rw [takeFrame, if_neg h, if_neg h']

section
variable {unit : Nat} {tag : Byte} {payload : List Byte} {s : State}

theorem downArrives_discards (h : (s.acp.units.get unit).role = .none ∨ (s.acp.units.get unit).presence = .absent) :
    downArrives unit tag payload s = raiseAccessory .discard unit none none s := if_pos h

theorem downArrives_full (h : ¬((s.acp.units.get unit).role = .none ∨ (s.acp.units.get unit).presence = .absent))
    (hq : 16 ≤ s.acp.queue.length) : downArrives unit tag payload s = linkError s := by
  rw [downArrives, if_neg h, if_pos hq]

theorem downArrives_joins (h : ¬((s.acp.units.get unit).role = .none ∨ (s.acp.units.get unit).presence = .absent))
    (hq : s.acp.queue.length < 16) : downArrives unit tag payload s =
      { s with acp := { s.acp with queue := s.acp.queue ++ [⟨unit, tag, payload, false⟩] } } := by
  rw [downArrives, if_neg h, if_neg (by omega)]

end

/-- An event of the lane link that sets the link error flag and makes the assembler hunt. -/
theorem does_linkError {i : Instr} {f : State → State} {s : State} (he : exec i s = event f s)
    (hf : f s = linkError (receiver .hunt 0 [] [] s)) :
    Does i s [.link] [] fun t => t.lli.settings =
      { s.lli.settings with phase := .hunt, rxLength := 0, rxBody := [], rxCheck := [], linkError := true } :=
  does_of he (by rw [hf]; exact (receiver_works _ _ _ _ s).trans (linkError_works _)) (.inl (by rw [hf]; rfl))
    (by rw [hf, finish_settings]; rfl)

/-- Settles O6: the frame passes through the assembler, and its unit and kind decide what becomes of it. -/
theorem receivedFramesAreTakenOrDiscarded : Obligations.ReceivedFramesAreTakenOrDiscarded := by
  unfold Obligations.ReceivedFramesAreTakenOrDiscarded
  refine ⟨⟨fun tag payload s hs hlen => ?_, fun unit tag payload s hs hlen h1 h4 => ?_,
    fun unit kind tag payload s hs hlen hu hk hreq hdown => ?_, fun body c d s hs hmin hmax hbad => ?_⟩,
    fun s hs => ?_, fun length s hs hbad => ?_⟩
  · have hf := receive_frameBytes (tag := tag) hs hlen (show 0 < 256 by decide) (show 1 < 256 by decide)
    rw [takeFrame_request] at hf
    have hw := receiver_works .hunt 0 [] [] s
    refine ⟨fun hroom => ?_, fun hfull hroom => ?_, fun hfull hnone => ?_⟩
    · rw [arriveRequest_joins (show (receiver .hunt 0 [] [] s).lli.requests.length < 8 from hroom)] at hf
      refine does_of (f := receive (frameBytes 0 1 tag payload)) rfl ?_ (.inl (by rw [hf]; rfl)) ?_
      · rw [hf]
        exact (hw.mono (by decide) (by decide)).trans ((with_requests_works _ _).mono (by decide) (by decide))
      · rw [hf, finish_settings, finish_requests]
        exact ⟨rfl, rfl⟩
    · rw [arriveRequest_busy (show 8 ≤ (receiver .hunt 0 [] [] s).lli.requests.length from hfull) hroom] at hf
      have he : exec (.laneFrameReceived (frameBytes 0 1 tag payload)) s =
          .next (finish s (receive (frameBytes 0 1 tag payload) s)) := rfl
      rw [hf] at he
      obtain ⟨t, ht, ⟨hpending, hparts, hnotices⟩, hP⟩ :=
        does_finish (P := fun t => t.lli.settings = (receiver .hunt 0 [] [] s).lli.settings ∧
          Answered ⟨tag, .refused .busyLink, [], false⟩ s t) he (hw.respond _) rfl rfl rfl
          ⟨by rw [finish_settings]; rfl, by rw [Answered, finish_upstream]; simp [respond, Lli.upstream, receiver]⟩
      exact ⟨t, ht, ⟨hpending, fun p hp => hparts p fun hm => hp (by simpa [or_comm] using hm), hnotices⟩, hP⟩
    · rw [arriveRequest_drops (show 8 ≤ (receiver .hunt 0 [] [] s).lli.requests.length from hfull) hnone] at hf
      exact does_linkError (f := receive (frameBytes 0 1 tag payload)) rfl hf
  · have hf := receive_frameBytes (tag := tag) hs hlen (show unit < 256 by omega) (show 4 < 256 by decide)
    rw [takeFrame_down ⟨h1, h4⟩] at hf
    have hw := receiver_works .hunt 0 [] [] s
    refine ⟨fun hgone hroom => ?_, fun hgone => ?_, fun hgone hfull => ?_⟩
    · rw [downArrives_joins (s := receiver .hunt 0 [] [] s) hgone hroom] at hf
      refine does_of (f := receive (frameBytes unit 4 tag payload)) rfl ?_ (.inl (by rw [hf]; rfl)) ?_
      · rw [hf]
        exact (hw.mono (by decide) (by decide)).trans ((withAcp_works _ _).mono (by decide) (by decide))
      · rw [hf, finish_settings, finish_acp_queue, finish_acp_units, finish_acp_held]
        exact ⟨rfl, rfl, rfl, rfl⟩
    · rw [downArrives_discards (s := receiver .hunt 0 [] [] s) hgone] at hf
      refine does_of (f := receive (frameBytes unit 4 tag payload)) rfl ?_ (.inl (by rw [hf]; rfl)) ?_
      · rw [hf]
        exact (hw.mono (by decide) (by decide)).raised (List.mem_singleton_self _)
      · rw [hf]
        refine ⟨by rw [finish_settings]; rfl, (standing_raise _ _).finish s ?_⟩
        exact fun h => by cases h
    · rw [downArrives_full (s := receiver .hunt 0 [] [] s) hgone hfull] at hf
      exact does_linkError (f := receive (frameBytes unit 4 tag payload)) rfl hf
  · have hf := receive_frameBytes (tag := tag) hs hlen hu hk
    rw [takeFrame_other hreq hdown] at hf
    exact does_linkError (f := receive (frameBytes unit kind tag payload)) rfl hf
  · have hf := receive_frame hs hmin hmax c d
    rw [hbad, if_neg Bool.false_ne_true] at hf
    exact does_linkError (f := receive _) rfl hf
  · exact does_linkError (f := fun s => if s.lli.phase = .hunt then s else discardFrame s) rfl (if_neg hs)
  · exact does_linkError (f := impossibleLength length) rfl (if_pos ⟨hs, by omega⟩)

/-! ## The transmitter's choice (R194) -/

/-- In an ascending pending set the enabled notice of the lowest kind is the first enabled one. -/
theorem find_lowest {p : Notice → Bool} {n : Notice} :
    ∀ {l : List Notice}, l.Pairwise (fun a b => a.kind < b.kind) → n ∈ l → p n = true →
      (∀ m ∈ l, p m = true → n.kind ≤ m.kind) → l.find? p = some n
  | m :: l, hl, hn, hp, hmin => by
    rw [List.pairwise_cons] at hl
    cases hm : p m with
    | true =>
      rw [List.find?_cons_of_pos hm]
      rcases List.mem_cons.mp hn with rfl | hn
      · rfl
      · have := hl.1 n hn
        have := hmin m (List.mem_cons_self ..) hm
        omega
    | false =>
      rw [List.find?_cons_of_neg (by rw [hm]; decide)]
      rcases List.mem_cons.mp hn with rfl | hn
      · rw [hp] at hm
        cases hm
      · exact find_lowest hl.2 hn hp fun m' hm' => hmin m' (List.mem_cons_of_mem _ hm')

/-- In an ascending pending set a kind stands at most once. -/
theorem mem_filter_kind {l : List Notice} (hl : l.Pairwise fun a b => a.kind < b.kind) {n : Notice} (hn : n ∈ l) (m : Notice) :
    m ∈ l.filter (fun m => m.kind != n.kind) ↔ m ∈ l ∧ m ≠ n := by
  have hinj := List.Pairwise.forall_of_forall_of_flip (R := fun a b : Notice => a.kind = b.kind → a = b) (fun _ _ _ => rfl)
    (hl.imp fun h e => absurd e (Nat.ne_of_lt h)) (hl.imp fun h e => absurd e.symm (Nat.ne_of_lt h))
  simp only [List.mem_filter, bne_iff_ne, ne_eq, and_congr_right_iff]
  exact fun hm => ⟨fun h e => h (by rw [e]), fun h e => h (hinj hm hn e)⟩

/-- At the end of a frame a transmitter that does not await the link reset chooses the next one. -/
theorem exec_transmitEnd {s : State} {f : TxFrame} (hf : s.lli.sending = some f) (ho : ∀ r, f = .response r → r.ofReset = false)
    (ha : s.lli.resetAnswer ≠ .sent) :
    exec .transmitEnd s = .next (chooseFrame { s with lli := { s.lli with sending := none } }) := by
  have hplain : f.answersReset = false := by
    cases f with
    | response r => exact ho r rfl
    | _ => rfl
  change Host.Outcome.next (transmitEnd s) = _
  rw [transmitEnd_sent hf, hplain, if_neg Bool.false_ne_true, pump, if_neg (by simpa using ha)]

/-- Settles O7: the choice of a free transmitter, one queue after the other. -/
theorem transmitterChoosesResponsesThenNoticesThenFrames :
    Obligations.TransmitterChoosesResponsesThenNoticesThenFrames := by
  unfold Obligations.TransmitterChoosesResponsesThenNoticesThenFrames
  intro s f hf ho ha
  unfold Completes
  rw [exec_transmitEnd hf ho ha]
  have hnone : (∀ m ∈ s.lli.notices, enabled s.lli.mask m = false) → s.lli.notices.find? (enabled s.lli.mask) = none :=
    fun h => List.find?_eq_none.mpr fun m hm => by rw [h m hm]; decide
  refine ⟨fun r rs hr => ?_, fun n hr hasc hn hen hmin => ?_, fun g gs hr hno hup => ?_, fun hr hno hup => ?_⟩
  · simp only [chooseFrame, hr]
  · rw [ascending_iff_pairwise] at hasc
    have hc : chooseFrame { s with lli := { s.lli with sending := none } } = { s with
        lli := { s.lli with notices := s.lli.notices.filter (fun m => m.kind != n.kind), sending := some (.notice n) }
        acp := { s.acp with blocked := if isAccessory n then 0 else s.acp.blocked } } := by
      simp only [chooseFrame, hr, find_lowest hasc hn hen hmin]
    exact ⟨_, congrArg _ hc, rfl, mem_filter_kind hasc hn, rfl, by simp [isAccessory], rfl⟩
  · simp only [chooseFrame, hr, hnone hno, hup]
  · simp only [chooseFrame, hr, hnone hno, hup]

/-! ## CONTROLLER_RESET and the link reset (R188) -/

theorem linkTables_kept (t : Tbs) :
    t.afterLink.item.active = t.item.active ∧ t.afterLink.code.active = t.code.active ∧
    t.afterLink.font.active = t.font.active ∧ t.afterLink.cardFormat.active = t.cardFormat.active ∧
    t.afterLink.headerTrailer.active = t.headerTrailer.active ∧
    ∀ n, t.afterLink.generation n = t.generation n ∧ t.afterLink.loadState n = .empty :=
  ⟨rfl, rfl, rfl, rfl, rfl, fun n => by cases n <;> exact ⟨rfl, rfl⟩⟩

/-- Settles O8: the request itself, then the reset that its response leads to. -/
theorem controllerResetLeadsToTheLinkReset : Obligations.ControllerResetLeadsToTheLinkReset := by
  unfold Obligations.ControllerResetLeadsToTheLinkReset
  refine ⟨fun tag s u hr => ?_, fun pins s hw hready => ⟨?_, fun ⟨r, hr, ho⟩ => ?_⟩⟩
  · have hworks : Works [.link] [] u (controllerReset u).1 := Works.of rfl rfl rfl rfl fun p hp => by
      cases p with
      | link => exact absurd (List.mem_singleton_self _) hp
      | _ => rfl
    have hsettings : (finish s (answer tag true controllerReset u)).lli.settings =
        { u.lli.settings with resetAnswer := .waiting } := by rw [finish_settings]; rfl
    refine ⟨finish s (answer tag true controllerReset u), ?_, ?_, ?_, hsettings, ?_⟩
    · change execControllerReset tag s = _
      rw [execControllerReset, request_taken hr]
    · rw [Answered, finish_answer_upstream]
      rfl
    · exact ((hworks.respond _).finished (.inl (by rw [← hr.wch]; rfl)) (fun _ => rfl) fun _ _ => rfl :
        ChangesOnly [.responses, .link] [] u _)
    · have hanswer := congrArg Lli.resetAnswer hsettings
      have hwaits : (finish s (answer tag true controllerReset u)).lli.resetAnswer = .waiting := hanswer
      rw [routerOpen, hwaits]
      rfl
  · have hlink : s.linkResetReady = true := by
      rw [State.linkResetReady, hw]
      rcases hready with h | ⟨r, h, ho⟩
      · simp [h]
      · simp [h, ho]
    refine ⟨resetPart .link pins s, ?_, resetPart_resetTo _ _ _, resetPart_nextTag, resetPart_counter, ?_⟩
    · change execLinkReset pins s = _
      rw [execLinkReset, if_pos hlink]
    · rw [resetPart_tbs, if_pos rfl]
      obtain ⟨hitem, hcode, hfont, hcard, hheader, hloads⟩ := linkTables_kept s.tbs
      exact ⟨hitem, hcode, hfont, hcard, hheader, hloads, resetPart_checkedStore _ _ _⟩
  · refine ⟨resetPart .link s.pins { s with lli := { s.lli with sending := none } }, ?_,
      resetTo_of_pending (resetPart_resetTo _ _ _) rfl, resetPart_nextTag, resetPart_counter⟩
    change Host.Outcome.next (transmitEnd s) = _
    rw [transmitEnd_sent hr, if_pos (show (TxFrame.response r).answersReset = true from ho), hw]
    rfl

/-! ## LANE_START, the mask and the pending set (R189, R195, R196) -/

theorem kind_lt (n : Notice) : n.kind < 16 := by cases n <;> simp [Notice.kind]

/-- A request that changes the settings of the lane link alone. -/
theorem with_settings_works {s : State} {l : Lli} (hs : l.sending = s.lli.sending) (hr : l.responses = s.lli.responses)
    (hn : l.notices = s.lli.notices) (hq : l.requests = s.lli.requests) (ha : l.accUps = s.lli.accUps) :
    Works [.link] [] s { s with lli := l } :=
  Works.of rfl hs hr hn fun p hp => by
    cases p with
    | link => exact absurd (List.mem_singleton_self _) hp
    | requests => exact hq
    | responses => exact hr
    | accFrames => exact ha
    | transmitter => exact hs
    | _ => rfl

/-- A due time that has come moves the clock alone (log 4). -/
theorem reach_works (due : Nat) (s : State) : Works [.clock] [] s (reach due s) :=
  Works.of rfl rfl rfl rfl fun p hp => by
    cases p with
    | clock => exact absurd (List.mem_singleton_self _) hp
    | _ => rfl

theorem laneStart_begins {u : State} (h : u.lli.lane = .unconfigured) :
    laneStart u = okay [] { u with lli := { u.lli with
      lane := .ready, startupDue := none, notices := u.lli.notices.filter fun n => n.kind != 1 } } := by
  rw [laneStart, if_neg (by rw [h]; decide)]

/-- Settles O9: each request of the lane's start and notices, then the STARTUP timer. -/
theorem laneStartNoticesAndEvents : Obligations.LaneStartNoticesAndEvents := by
  unfold Obligations.LaneStartNoticesAndEvents
  refine ⟨⟨fun tag s hlane => serves_of (h := laneStart) rfl fun u hr => ?_,
    fun tag s hlane => serves_of (h := laneStart) rfl fun u hr => ?_,
    fun tag flags s => serves_of (h := setNoticeMask flags) rfl fun u hr => ?_,
    fun tag s => serves_of (h := readEvents) rfl fun u hr => ?_⟩, fun s due hdue hlane => ?_⟩
  · have hlane' : u.lli.lane = .unconfigured := by obtain ⟨q, rfl⟩ := hr.eq; exact hlane
    rw [laneStart_begins hlane']
    refine ⟨rfl, ⟨rfl, rfl, rfl, fun p hp => ?_, fun n hn => ⟨fun h => (List.mem_filter.mp h).1, fun h => ?_⟩⟩, .inl rfl, ?_, ?_⟩
    · cases p with
      | link => exact absurd (List.mem_singleton_self _) hp
      | _ => rfl
    · exact .inl (List.mem_filter.mpr ⟨h, by simpa using hn⟩)
    · rw [finish_settings]
      rfl
    · rw [finish_respond_notices, if_pos (by rw [← hr.wch]; rfl)]
      exact fun n hn => by simpa using (List.mem_filter.mp hn).2
  · have hlane' : u.lli.lane = .ready := by obtain ⟨q, rfl⟩ := hr.eq; exact hlane
    rw [laneStart, if_pos hlane']
    exact ⟨rfl, Works.refl _ _ _, .inl rfl, trivial⟩
  · exact ⟨rfl, with_settings_works rfl rfl rfl rfl rfl, .inl rfl, by rw [finish_settings]; rfl⟩
  · refine ⟨rfl, ⟨rfl, rfl, rfl, fun p hp => ?_, fun n hn => ?_⟩, .inl rfl, ?_, ?_⟩
    · cases p with
      | accessory => exact absurd (List.mem_singleton_self _) hp
      | _ => rfl
    · exact absurd (List.mem_range.mpr (kind_lt n)) hn
    · rw [finish_respond_notices, if_pos (by rw [← hr.wch]; rfl)]
      rfl
    · rw [finish_respond_acp]
      rfl
  · have he : startupTimer s = raise (.startup s.lli.resetCause)
        (reach due { s with lli := { s.lli with startupDue := some (due + 1000000) } }) := by
      rw [startupTimer, hdue]
      exact if_pos hlane
    refine does_of (f := startupTimer) rfl ?_ (.inl (by rw [he]; rfl)) ?_
    · rw [he]
      have hset : Works [.link] [] s { s with lli := { s.lli with startupDue := some (due + 1000000) } } :=
        with_settings_works rfl rfl rfl rfl rfl
      refine ((hset.mono (by decide) (by decide)).trans (Works.mono (reach_works due _) (by decide) (by decide))).raised
        (List.mem_singleton_self _)
    · rw [he]
      refine ⟨by rw [finish_clock]; rfl, by rw [finish_settings]; rfl, (standing_raise _ _).finish s ?_⟩
      exact fun h => by cases h

end Sys2Proof.Machine
end

section
/-! Proofs about SET_PARAM (R197): the value in effect, the filter length (R4), the mirror (R169) and the roles (R158). -/

namespace Sys2Proof.Machine

open Sys2Proof

/-! ## The roles (R158) -/

theorem get_set_unit (u : Units) (a : AccUnit) {n m : Nat} (hn : n ∈ unitNumbers) (hm : m ∈ unitNumbers) :
    (u.set n a).get m = if m = n then a else u.get m := by
  simp only [unitNumbers, List.mem_cons, List.not_mem_nil, or_false] at hn hm
  rcases hn with rfl | rfl | rfl | rfl <;> rcases hm with rfl | rfl | rfl | rfl <;> rfl

theorem take_role (a : AccUnit) (r : Role) : (a.take r).role = r := by
  unfold AccUnit.take
  split <;> rfl

/-- One unit's role changes, when it is another one (R158). -/
def assignRole (s : State) (p : Nat × Role) : State := if (s.acp.units.get p.1).role = p.2 then s else changeRole p.1 p.2 s

theorem changeRoles_eq (rs : List Role) (s : State) : changeRoles rs s = (unitNumbers.zip rs).foldl assignRole s := rfl

theorem assignRole_role {s : State} {p : Nat × Role} {m : Nat} (hp : p.1 ∈ unitNumbers) (hm : m ∈ unitNumbers) :
    ((assignRole s p).acp.units.get m).role = if m = p.1 then p.2 else (s.acp.units.get m).role := by
  unfold assignRole
  split
  · rename_i h
    split
    · rename_i hmp
      rw [hmp, h]
    · rfl
  · show ((s.acp.units.set p.1 _).get m).role = _
    rw [get_set_unit _ _ hp hm]
    split
    · exact take_role _ _
    · rfl

theorem assignRole_queue {s : State} {p : Nat × Role} {f : DownFrame} (hf : f ∈ (assignRole s p).acp.queue) :
    f ∈ s.acp.queue ∧ (p.2 = .none → f.unit = p.1 → (s.acp.units.get p.1).role = .none) := by
  unfold assignRole at hf
  split at hf
  · rename_i h
    exact ⟨hf, fun hn _ => h.trans hn⟩
  · obtain ⟨hq, hkeep⟩ := List.mem_filter.mp hf
    exact ⟨hq, fun hn hu => by simp [hn, hu] at hkeep⟩

theorem assignRole_later {s : State} {p : Nat × Role} :
    (∀ m ∈ s.acp.later, m ∈ (assignRole s p).acp.later) ∧
    ((s.acp.units.get p.1).role = .none → p.2 ≠ .none → p.1 ∈ (assignRole s p).acp.later) := by
  unfold assignRole
  split
  · rename_i h
    exact ⟨fun _ => id, fun hn hp => absurd (h.symm.trans hn) hp⟩
  · show (∀ m ∈ s.acp.later, m ∈ if (s.acp.units.get p.1).role = .none then _ else _) ∧ (_ → _ → p.1 ∈ if (s.acp.units.get p.1).role = .none then _ else _)
    split
    · exact ⟨fun m hm => List.mem_insert_of_mem hm, fun _ _ => List.mem_insert_self⟩
    · rename_i h
      exact ⟨fun _ => id, fun hn => absurd hn h⟩

/-- What the change of several units' roles does: each unit takes its own role and the others keep theirs; a frame that
stays was there, and its unit was not given NONE anew; a unit that had NONE waits for the next round. -/
theorem assignRoles_spec {ps : List (Nat × Role)} (hu : ∀ p ∈ ps, p.1 ∈ unitNumbers) (hd : (ps.map Prod.fst).Nodup) :
    ∀ s : State,
      (∀ p ∈ ps, ((ps.foldl assignRole s).acp.units.get p.1).role = p.2) ∧
      (∀ m ∈ unitNumbers, m ∉ ps.map Prod.fst →
        ((ps.foldl assignRole s).acp.units.get m).role = (s.acp.units.get m).role) ∧
      (∀ f ∈ (ps.foldl assignRole s).acp.queue, f ∈ s.acp.queue ∧
        ∀ p ∈ ps, p.2 = .none → f.unit = p.1 → (s.acp.units.get p.1).role = .none) ∧
      (∀ m ∈ s.acp.later, m ∈ (ps.foldl assignRole s).acp.later) ∧
      (∀ p ∈ ps, (s.acp.units.get p.1).role = .none → p.2 ≠ .none → p.1 ∈ (ps.foldl assignRole s).acp.later) := by
  induction ps with
  | nil => exact fun s => ⟨by simp, fun _ _ _ => rfl, fun _ hf => ⟨hf, by simp⟩, fun _ => id, by simp⟩
  | cons q ps ih =>
    intro s
    rw [List.map_cons, List.nodup_cons] at hd
    obtain ⟨hq, hps⟩ := List.forall_mem_cons.mp hu
    obtain ⟨hrole, hkeep, hqueue, hlater, hnew⟩ := ih hps hd.2 (assignRole s q)
    have hother : ∀ p ∈ ps, ((assignRole s q).acp.units.get p.1).role = (s.acp.units.get p.1).role := fun p hp => by
      rw [assignRole_role hq (hps p hp), if_neg fun h : p.1 = q.1 => hd.1 (h ▸ List.mem_map_of_mem hp)]
    rw [List.foldl_cons]
    refine ⟨List.forall_mem_cons.mpr ⟨?_, hrole⟩, fun m hm hn => ?_, fun f hf => ?_, fun m hm => hlater m (assignRole_later.1 m hm),
      List.forall_mem_cons.mpr ⟨fun hn hr => hlater _ (assignRole_later.2 hn hr), fun p hp hn => hnew p hp (by rw [hother p hp, hn])⟩⟩
    · rw [hkeep q.1 hq hd.1, assignRole_role hq hq, if_pos rfl]
    · rw [List.map_cons, List.mem_cons, not_or] at hn
      rw [hkeep m hm hn.2, assignRole_role hq hm, if_neg hn.1]
    · obtain ⟨hin, hold⟩ := hqueue f hf
      obtain ⟨hin', hself⟩ := assignRole_queue hin
      exact ⟨hin', List.forall_mem_cons.mpr ⟨hself, fun p hp hn hfu => by rw [← hother p hp]; exact hold p hp hn hfu⟩⟩

/-! ### What else SET_PARAM does with the roles -/

theorem mirrorSync_acp (s : State) :
    (mirrorSync s).acp.units = s.acp.units ∧ (mirrorSync s).acp.queue = s.acp.queue ∧
    (mirrorSync s).acp.later = s.acp.later ∧ (mirrorSync s).acp.held = s.acp.held := by
  unfold mirrorSync
  split <;> exact ⟨rfl, rfl, rfl, rfl⟩

theorem discardHeld_acp (s : State) :
    (discardHeld s).acp.units = s.acp.units ∧ (discardHeld s).acp.queue = s.acp.queue ∧
    ∀ m ∈ s.acp.later, m ∈ (discardHeld s).acp.later := by
  unfold discardHeld
  split
  · exact ⟨rfl, rfl, fun _ => id⟩
  · exact ⟨rfl, rfl, fun m hm => List.mem_insert_of_mem hm⟩

theorem visitFrom_acp (ns : List Nat) (s : State) :
    (visitFrom ns s).acp.units = s.acp.units ∧ (∀ f ∈ (visitFrom ns s).acp.queue, f ∈ s.acp.queue) ∧
    (visitFrom ns s).acp.later = s.acp.later := by
  induction ns with
  | nil => exact ⟨rfl, fun _ => id, rfl⟩
  | cons n rest ih =>
    unfold visitFrom visit
    split
    · exact ih
    · split
      · exact ⟨rfl, fun _ hf => List.mem_of_mem_erase hf, rfl⟩
      · exact ⟨rfl, fun _ => id, rfl⟩

theorem endVisit_acp (s : State) :
    (endVisit s).acp.units = s.acp.units ∧ (∀ f ∈ (endVisit s).acp.queue, f ∈ s.acp.queue) ∧
    (endVisit s).acp.later = s.acp.later := by
  unfold endVisit
  split
  · split
    · exact visitFrom_acp _ _
    · exact ⟨rfl, fun _ => id, rfl⟩
  · exact ⟨rfl, fun _ => id, rfl⟩

/-- The roles set (R158): the units are those that the change of the roles makes; frames only leave, and a unit left for
the next round stays so. -/
theorem setRoles_acp (rs : List Role) (s : State) :
    (setRoles rs s).acp.units = (changeRoles rs s).acp.units ∧
    (∀ f ∈ (setRoles rs s).acp.queue, f ∈ (changeRoles rs s).acp.queue) ∧
    (∀ m ∈ (changeRoles rs s).acp.later, m ∈ (setRoles rs s).acp.later) := by
  unfold setRoles
  generalize changeRoles rs s = t
  have rest (x : State) (hunits : x.acp.units = t.acp.units) (hqueue : x.acp.queue = t.acp.queue)
      (hlater : ∀ m ∈ t.acp.later, m ∈ x.acp.later) :
      (endVisit (mirrorSync x)).acp.units = t.acp.units ∧
      (∀ f ∈ (endVisit (mirrorSync x)).acp.queue, f ∈ t.acp.queue) ∧
      (∀ m ∈ t.acp.later, m ∈ (endVisit (mirrorSync x)).acp.later) := by
    obtain ⟨hu, hq, hl⟩ := endVisit_acp (mirrorSync x)
    obtain ⟨hu', hq', hl', _⟩ := mirrorSync_acp x
    refine ⟨by rw [hu, hu', hunits], fun f hf => ?_, fun m hm => ?_⟩
    · have := hq f hf
      rwa [hq', hqueue] at this
    · rw [hl, hl']
      exact hlater m hm
  dsimp only
  split
  · exact rest t rfl rfl fun _ => id
  · obtain ⟨hunits, hqueue, hlater⟩ := discardHeld_acp t
    exact rest _ hunits hqueue hlater

/-! ### The roles that a value gives -/

theorem resolveRoles_four (a b c d : Role) :
    resolveRoles [] [a, b, c, d] =
      [a, if (b = .scanner ∨ b = .display) ∧ a = b then .other else b,
       if (c = .scanner ∨ c = .display) ∧ (a = c ∨ b = c) then .other else c,
       if (d = .scanner ∨ d = .display) ∧ (a = d ∨ b = d ∨ c = d) then .other else d] := by
  simp [resolveRoles, eq_comm (a := b) (b := a), eq_comm (a := c) (b := a), eq_comm (a := c) (b := b),
    eq_comm (a := d) (b := a), eq_comm (a := d) (b := b), eq_comm (a := d) (b := c), or_comm, or_left_comm]

/-- SCANNER and DISPLAY stay with at most one unit each (R158). -/
theorem count_resolveRoles {r : Role} (hr : r = .scanner ∨ r = .display) (rs : List Role) :
    ∀ taken, (resolveRoles taken rs).count r ≤ 1 ∧ (r ∈ taken → (resolveRoles taken rs).count r = 0) := by
  have hother : Role.other ≠ r := by rcases hr with rfl | rfl <;> decide
  induction rs with
  | nil => exact fun taken => ⟨Nat.zero_le _, fun _ => rfl⟩
  | cons x rs ih =>
    intro taken
    obtain ⟨hle, hnone⟩ := ih (x :: taken)
    rw [resolveRoles, List.count_cons]
    by_cases hx : x = r
    · subst hx
      have hzero := hnone (List.mem_cons_self ..)
      refine ⟨?_, fun hmem => ?_⟩
      · rw [hzero, Nat.zero_add]
        split <;> split <;> decide
      · rw [hzero, if_pos (show (x = .scanner ∨ x = .display) ∧ taken.contains x = true from ⟨hr, by simpa using hmem⟩),
          if_neg (by simpa using hother)]
    · have hne : (if (x = .scanner ∨ x = .display) ∧ taken.contains x = true then Role.other else x) ≠ r := by
        split
        · exact hother
        · exact hx
      rw [if_neg (by simpa using hne)]
      exact ⟨hle, fun hmem => hnone (List.mem_cons_of_mem _ hmem)⟩

/-- The role that byte `n` of a value gives unit `n`, before it is held to one SCANNER and one DISPLAY (R197). -/
def givenRole (v : BitVec 32) (n : Nat) : Role := roleOf (v.toNat / 256 ^ (4 - n) % 256)

theorem rolesOf_eq (v : BitVec 32) :
    rolesOf v = resolveRoles [] [givenRole v 1, givenRole v 2, givenRole v 3, givenRole v 4] := by
  simp [rolesOf, givenRole, Nat.shiftRight_eq_div_pow]

/-- The roles of the units after *accessory roles* is set (R158). -/
theorem setRoles_role (v : BitVec 32) (s : State) :
    unitNumbers.map (fun n => ((setRoles (rolesOf v) s).acp.units.get n).role) = rolesOf v := by
  rw [(setRoles_acp _ s).1, changeRoles_eq]
  obtain ⟨a, b, c, d, hr⟩ : ∃ a b c d, rolesOf v = [a, b, c, d] := ⟨_, _, _, _, (rolesOf_eq v).trans (resolveRoles_four ..)⟩
  rw [hr]
  obtain ⟨hrole, _⟩ := assignRoles_spec (ps := unitNumbers.zip [a, b, c, d]) (by simp [unitNumbers]) (by simp [unitNumbers]) s
  simpa [unitNumbers] using hrole

theorem setRoles_role_eq {v : BitVec 32} {s : State} {n : Nat} (hn : n ∈ unitNumbers) :
    ((setRoles (rolesOf v) s).acp.units.get n).role =
      if (givenRole v n = .scanner ∨ givenRole v n = .display) ∧ ∃ m ∈ unitNumbers, m < n ∧ givenRole v m = givenRole v n then .other
      else givenRole v n := by
  have h := setRoles_role v s
  generalize setRoles (rolesOf v) s = t at h ⊢
  rw [rolesOf_eq, resolveRoles_four] at h
  simp only [unitNumbers, List.map_cons, List.map_nil, List.cons.injEq, and_true] at h
  obtain ⟨h1, h2, h3, h4⟩ := h
  simp only [unitNumbers, List.mem_cons, List.not_mem_nil, or_false] at hn
  rcases hn with rfl | rfl | rfl | rfl
  · simp [h1, unitNumbers]
  · simp [h2, unitNumbers]
  · simp [h3, unitNumbers]
  · simp [h4, unitNumbers]

/-- A frame of a unit of role NONE was there before, and the unit had NONE; a unit that had NONE and takes a role waits for
the next round (R158). -/
theorem setRoles_frames {rs : List Role} (hlen : rs.length = 4) (s : State) {n : Nat} (hn : n ∈ unitNumbers) :
    (((setRoles rs s).acp.units.get n).role = .none → ∀ f ∈ (setRoles rs s).acp.queue, f.unit = n →
      f ∈ s.acp.queue ∧ (s.acp.units.get n).role = .none) ∧
    ((s.acp.units.get n).role = .none → ((setRoles rs s).acp.units.get n).role ≠ .none → n ∈ (setRoles rs s).acp.later) := by
  obtain ⟨hunits, hqueue, hlater⟩ := setRoles_acp rs s
  have hfst : (unitNumbers.zip rs).map Prod.fst = unitNumbers := List.map_fst_zip (by rw [hlen]; decide)
  obtain ⟨hrole, _, hframes, _, hwaits⟩ := assignRoles_spec (ps := unitNumbers.zip rs)
    (fun p hp => hfst ▸ List.mem_map_of_mem hp) (by rw [hfst]; decide) s
  obtain ⟨p, hp, rfl⟩ : ∃ p ∈ unitNumbers.zip rs, p.1 = n := by
    rw [← hfst] at hn
    exact List.mem_map.mp hn
  rw [hunits, changeRoles_eq, hrole p hp]
  refine ⟨fun hnone f hf hu => ?_, fun hold hnew => hlater _ (hwaits p hp hold hnew)⟩
  obtain ⟨hin, hold⟩ := hframes f (hqueue f hf)
  exact ⟨hin, hold p hp hnone hu⟩

/-- What *accessory roles* leaves, of every state with the accessory port that it makes. -/
theorem rolesSet_spec {v : BitVec 32} {u t : State} (ht : t.acp = (setRoles (rolesOf v) u).acp) :
    [1, 2, 3, 4].map (fun n => (t.acp.units.get n).role) = rolesOf v ∧
    (∀ n ∈ [1, 2, 3, 4], (t.acp.units.get n).role =
      if (givenRole v n = .scanner ∨ givenRole v n = .display) ∧ ∃ m ∈ ([1, 2, 3, 4] : List Nat), m < n ∧ givenRole v m = givenRole v n
        then .other else givenRole v n) ∧
    (∀ r, (r = .scanner ∨ r = .display) → (rolesOf v).count r ≤ 1) ∧
    (∀ n ∈ [1, 2, 3, 4], (t.acp.units.get n).role = .none → ∀ f ∈ t.acp.queue, f.unit = n → f ∈ u.acp.queue ∧
      (u.acp.units.get n).role = .none) ∧
    (∀ n ∈ [1, 2, 3, 4], (u.acp.units.get n).role = .none → (t.acp.units.get n).role ≠ .none → n ∈ t.acp.later) := by
  have hlen : (rolesOf v).length = 4 := by rw [← setRoles_role v u]; rfl
  rw [ht]
  exact ⟨setRoles_role v u, fun n hn => setRoles_role_eq hn,
    fun r hspecial => rolesOf_eq v ▸ (count_resolveRoles hspecial _ []).1,
    fun n hn => (setRoles_frames hlen u hn).1, fun n hn => (setRoles_frames hlen u hn).2⟩

/-! ## The other parameters -/

theorem setParam_plain {k : Param} (hr : k ≠ .accessoryRoles) (hm : k ≠ .displayMirror) (hf : k ≠ .filterLength)
    (v : BitVec 32) (s : State) :
    setParam k v s = { s with lli := { s.lli with params := s.lli.params.set k v.toInt } } := by
  cases k with
  | accessoryRoles => exact absurd rfl hr
  | displayMirror => exact absurd rfl hm
  | filterLength => exact absurd rfl hf
  | _ => rfl

theorem setParamNamed_known {name : List Byte} {k : Param} (h : paramNamed name = some k) (v : BitVec 32) (s : State) :
    setParamNamed name v s = okay ((setParam k v s).param k) (setParam k v s) := by
  rw [setParamNamed, h]

/-- A parameter whose change is a change of the settings alone. -/
theorem serves_plain {tag : Byte} {name : List Byte} {k : Param} (h : paramNamed name = some k) (hr : k ≠ .accessoryRoles)
    (hm : k ≠ .displayMirror) (hf : k ≠ .filterLength) (v : BitVec 32) (s : State) :
    Serves (.setParam tag name v) tag s .ok
      (fun u => ({ u with lli := { u.lli with params := u.lli.params.set k v.toInt } } : State).param k) [.link] []
      fun u t => t.lli.settings = { u.lli.settings with params := u.lli.params.set k v.toInt } := by
  refine serves_of (exec_setParam tag name v s) fun u _ => ?_
  rw [setParamNamed_known h, setParam_plain hr hm hf]
  exact ⟨rfl, withLinkParams_works _ u, .inl rfl, by rw [finish_settings]; rfl⟩

theorem clamp_cast (lo hi : Nat) (v : Int) : (clamp lo hi v : Int) = max (lo : Int) (min (hi : Int) v) :=
  Int.toNat_of_nonneg (le_max_of_le_left (Int.natCast_nonneg _))

/-- A parameter that takes its value held to a range of R197. -/
theorem serves_clamped {tag : Byte} {name : List Byte} {k : Param} {lo hi : Nat} {put : Params → Nat → Params}
    (h : paramNamed name = some k) (hr : k ≠ .accessoryRoles) (hm : k ≠ .displayMirror) (hf : k ≠ .filterLength)
    (hput : ∀ p x, Params.set p k x = put p (clamp lo hi x))
    (hget : ∀ (s : State) n, ({ s with lli := { s.lli with params := put s.lli.params n } } : State).param k = [.int 4 n])
    (v : BitVec 32) (s : State) :
    Serves (.setParam tag name v) tag s .ok (fun _ => [.int 4 (max (lo : Int) (min (hi : Int) v.toInt))]) [.link] []
      fun u t => t.lli.settings =
        { u.lli.settings with params := put u.lli.params (max (lo : Int) (min (hi : Int) v.toInt)).toNat } := by
  have hplain := serves_plain h hr hm hf v s (tag := tag)
  simp only [hput, hget, clamp_cast] at hplain
  exact hplain

/-- The listed filter length is the nearest, and the greater of two equally near (R197). -/
theorem nearestLength_nearest (v : Int) {n : Nat} (hn : n ∈ [8, 16, 32, 64]) :
    |v - nearestLength v| ≤ |v - (n : Nat)| ∧ (|v - nearestLength v| = |v - (n : Nat)| → n ≤ nearestLength v) := by
  simp only [List.mem_cons, List.not_mem_nil, or_false] at hn
  rw [Int.abs_eq_natAbs, Int.abs_eq_natAbs]
  unfold nearestLength
  split <;> [skip; split <;> [skip; split]] <;> rcases hn with rfl | rfl | rfl | rfl <;> omega

theorem mirrorSync_off {s : State} (h : s.lli.params.displayMirror = false) :
    (mirrorSync s).acp.mirrorDue = none ∧ (mirrorSync s).acp.lastSent = false := by
  have hoff : s.mirrorRuns = false := by rw [State.mirrorRuns, h, Bool.false_and]
  rw [mirrorSync, hoff]
  exact ⟨rfl, rfl⟩

theorem toNat_ne_zero (x : Int) : (((x != 0).toNat : Nat) : Int) = if x = 0 then 0 else 1 := by
  by_cases h : x = 0 <;> simp [h]

/-- Settles O10: a parameter that changes the settings alone, then the three that do more. -/
theorem setParamTakesTheValueInEffect : Obligations.SetParamTakesTheValueInEffect := by
  unfold Obligations.SetParamTakesTheValueInEffect
  intro tag name v s
  refine ⟨fun hn => ?_, fun k hn hr hm hf => serves_plain hn hr hm hf v s, ?_, fun hn => ?_,
    ⟨fun hn => ?_, nearestLength_mem _, fun n hn => nearestLength_nearest _ hn⟩, fun hn => ?_, ?_⟩
  · refine refuses_of (exec_setParam tag name v s) fun u _ => ?_
    rw [setParamNamed, hn]
  · have named {n : String} {k : Param} (hk : paramNamed (ascii n) = some k) (hn : name = ascii n) : paramNamed name = some k :=
      hn ▸ hk
    exact ⟨fun hn => serves_clamped (put := fun p n => { p with stabilityCount := n }) (named rfl hn)
        (by decide) (by decide) (by decide) (fun _ _ => rfl) (fun _ _ => rfl) v s,
      fun hn => serves_clamped (put := fun p n => { p with captureTimeout := n }) (named rfl hn)
        (by decide) (by decide) (by decide) (fun _ _ => rfl) (fun _ _ => rfl) v s,
      fun hn => serves_clamped (put := fun p n => { p with disturbanceSettle := n }) (named rfl hn)
        (by decide) (by decide) (by decide) (fun _ _ => rfl) (fun _ _ => rfl) v s,
      fun hn => serves_clamped (put := fun p n => { p with cardExpiry := n }) (named rfl hn)
        (by decide) (by decide) (by decide) (fun _ _ => rfl) (fun _ _ => rfl) v s,
      fun hn => serves_clamped (put := fun p n => { p with authTimeout := n }) (named rfl hn)
        (by decide) (by decide) (by decide) (fun _ _ => rfl) (fun _ _ => rfl) v s,
      fun hn => serves_clamped (put := fun p n => { p with referralTimeout := n }) (named rfl hn)
        (by decide) (by decide) (by decide) (fun _ _ => rfl) (fun _ _ => rfl) v s,
      fun hn => serves_clamped (put := fun p n => { p with drawerPulse := n }) (named rfl hn)
        (by decide) (by decide) (by decide) (fun _ _ => rfl) (fun _ _ => rfl) v s,
      fun hn => serves_clamped (put := fun p n => { p with drawerConfirm := n }) (named rfl hn)
        (by decide) (by decide) (by decide) (fun _ _ => rfl) (fun _ _ => rfl) v s,
      fun hn => serves_clamped (put := fun p n => { p with drawerOverdue := n }) (named rfl hn)
        (by decide) (by decide) (by decide) (fun _ _ => rfl) (fun _ _ => rfl) v s,
      fun hn => serves_clamped (put := fun p n => { p with printDensity := n }) (named rfl hn)
        (by decide) (by decide) (by decide) (fun _ _ => rfl) (fun _ _ => rfl) v s,
      fun hn => serves_clamped (put := fun p n => { p with linePitch := n }) (named rfl hn)
        (by decide) (by decide) (by decide) (fun _ _ => rfl) (fun _ _ => rfl) v s,
      fun hn => serves_clamped (put := fun p n => { p with amountDecimals := n }) (named rfl hn)
        (by decide) (by decide) (by decide) (fun _ _ => rfl) (fun _ _ => rfl) v s,
      fun hn => serves_clamped (put := fun p n => { p with maskLeadDigits := n }) (named rfl hn)
        (by decide) (by decide) (by decide) (fun _ _ => rfl) (fun _ _ => rfl) v s⟩
  · have hk : paramNamed name = some .closeBeforeSale := hn ▸ rfl
    have hplain := serves_plain hk (by decide) (by decide) (by decide) v s (tag := tag)
    simp only [State.param, Params.set, toNat_ne_zero] at hplain
    exact hplain
  · refine serves_of (exec_setParam tag name v s) fun u hr => ?_
    rw [setParamNamed_known hn]
    have hlength : ({ u with lli := { u.lli with params := u.lli.params.set .filterLength v.toInt } } : State).lli.params.filterLength =
      nearestLength v.toInt := rfl
    by_cases h : nearestLength v.toInt = u.lli.params.filterLength
    · have hs : setParam .filterLength v u = { u with lli := { u.lli with params := u.lli.params.set .filterLength v.toInt } } :=
        if_pos h
      rw [hs, if_pos h]
      exact ⟨rfl, (withLinkParams_works _ u).mono (by decide) (by decide), .inl rfl,
        congrArg Lli.params (finish_settings _ _), by rw [finish_wch]; rfl⟩
    · have hs : setParam .filterLength v u = { u with
          lli := { u.lli with params := u.lli.params.set .filterLength v.toInt }, wch := u.wch.relearn } := if_neg h
      rw [hs, if_neg h]
      exact ⟨rfl, ((withLinkParams_works _ u).mono (by decide) (by decide)).trans ((relearn_works { u with lli := { u.lli with params := u.lli.params.set .filterLength v.toInt } }).mono
          (by decide) (by decide)),
        .inl rfl, congrArg Lli.params (finish_settings _ _), by rw [finish_wch]; rfl⟩
  · refine serves_of (exec_setParam tag name v s) fun u hr => ?_
    rw [setParamNamed_known hn]
    have hs : setParam .displayMirror v u =
      mirrorSync { u with lli := { u.lli with params := u.lli.params.set .displayMirror v.toInt } } := rfl
    rw [hs]
    have hw := (withLinkParams_works (u.lli.params.set .displayMirror v.toInt) u).mono (qs := [.link, .accessory])
      (js := []) (by decide) (by decide)
    have hworks := hw.trans ((mirrorSync_works _).mono (by decide) (by decide))
    obtain ⟨hunits, hqueue, _, hheld⟩ := mirrorSync_acp
      { u with lli := { u.lli with params := u.lli.params.set .displayMirror v.toInt } }
    have hlli : ∀ x : State, (mirrorSync x).lli = x.lli ∧ (mirrorSync x).wch = x.wch := fun x => by
      unfold mirrorSync
      split <;> exact ⟨rfl, rfl⟩
    obtain ⟨hlink, hwch⟩ := hlli { u with lli := { u.lli with params := u.lli.params.set .displayMirror v.toInt } }
    refine ⟨?_, hworks, .inl (congrArg Wch.detail hwch).symm, ?_⟩
    · show Reply.mk .ok [.int 4 _] = _
      rw [hlink]
      exact congrArg (fun i => Reply.mk .ok [.int 4 i]) (toNat_ne_zero _)
    · rw [finish_respond_acp]
      refine ⟨?_, hunits, hqueue, hheld, fun hz => mirrorSync_off ?_⟩
      · have := congrArg Lli.params (finish_settings s (respond ⟨tag, .ok, [.int 4 (if v.toInt = 0 then 0 else 1)], false⟩
          (mirrorSync { u with lli := { u.lli with params := u.lli.params.set .displayMirror v.toInt } })))
        refine this.trans ?_
        show (mirrorSync _).lli.params = _
        rw [hlink]
        rfl
      · show (v.toInt != 0) = false
        rw [hz]
        rfl
  · intro given hn
    have hgiven : given = givenRole v := by
      funext n
      simp only [given, givenRole]
      generalize v.toNat / 256 ^ (4 - n) % 256 = k
      rcases k with _ | _ | _ | k <;> rfl
    rw [hgiven]
    refine serves_of (exec_setParam tag name v s) fun u hr => ?_
    rw [setParamNamed_known hn]
    have hs : setParam .accessoryRoles v u = setRoles (rolesOf v) u := rfl
    rw [hs]
    have hworks := setRoles_works (rolesOf v) u
    have hwch : (setRoles (rolesOf v) u).wch = u.wch := hworks.2.2.2.1 .weighing (by decide)
    have hfields := congrArg (List.map fun r => Field.enum r.code) (setRoles_role v u)
    rw [List.map_map] at hfields
    refine ⟨congrArg (Reply.mk .ok) hfields, hworks, .inl (congrArg Wch.detail hwch).symm,
      rolesSet_spec (finish_respond_acp _ _ _)⟩

end Sys2Proof.Machine
end

section
/-! Proofs about the weighing channel's timers and requests (R2, R6 to R8, R12 to R25). -/

namespace Sys2Proof.Machine

open Sys2Proof

/-! ## A block's state replaced -/

theorem with_wch_works (w : Wch) (s : State) : Works [.weighing] [] s { s with wch := w } :=
  Works.of rfl rfl rfl rfl fun p hp => by
    cases p with
    | weighing => exact absurd (List.mem_singleton_self _) hp
    | _ => rfl

/-! ## The end of a capture (R22, R167) -/

/-- The end of a capture changes the slot, the tare and the late-cancel marker alone. -/
theorem endCapture_wch (r : CaptureResult) (s : State) :
    (endCapture r s).wch = { s.wch with
      capture := none, tare := (endCapture r s).wch.tare, lateCancel := (endCapture r s).wch.lateCancel } := by
  have hc := endCapture_capture r s
  revert hc
  unfold endCapture
  split
  · rename_i h
    intro _
    rw [← h]
  · exact fun _ => rfl

theorem endCapture_some {r : CaptureResult} {s : State} {c : Capture} (h : s.wch.capture = some c) :
    endCapture r s = raise (.capture c.source r none)
      { s with wch := { s.wch with capture := none, tare := s.wch.tare.lapse, lateCancel := true } } := by
  rw [endCapture, h]

theorem finishCapture_some {r : CaptureResult} {s : State} {c : Capture} (h : s.wch.capture = some c) :
    finishCapture r s = captureEmptied (endCapture r s) := by
  rw [finishCapture, if_pos (by rw [h]; rfl)]

/-- The first condition of R19 is never BUSY while the capture slot is empty. -/
theorem captureRefusal_ne_busy {plu : Nat} {s : State} (h : s.wch.capture = none) : captureRefusal plu s ≠ some .busy := by
  unfold captureRefusal
  rw [h]
  split
  · exact fun e => by cases e
  · rw [if_neg (by decide)]
    split
    · exact fun e => by cases e
    · split
      · exact fun e => by cases e
      · split <;> exact fun e => by cases e

/-- The empty capture slot leaves no held read (R167). -/
theorem captureEmptied_held {s : State} (h : s.wch.capture = none) : (captureEmptied s).acp.held = none := by
  unfold captureEmptied
  split
  · assumption
  · split
    · rename_i x _ _
      unfold startHeld
      have hbusy := captureRefusal_ne_busy (plu := x.plu) h
      split
      · rfl
      · contradiction
      · exact discardHeld_held s
    · exact discardHeld_held s

/-- R19: with a sale in OPEN and the slot EMPTY a capture of a weighed item's PLU is not refused in RUNNING. -/
theorem captureRefusal_none {plu : Nat} {s : State} (h1 : 1 ≤ plu) (h2 : plu ≤ 999999) (hc : s.wch.capture = none)
    (hs : s.wch.state = .running) (ho : s.openSale?.isSome = true)
    (hi : ∀ e, s.tbs.findItem plu = some e → e.basis ≠ .each) : captureRefusal plu s = none := by
  have hplu : pluInRange plu = true := by simp [pluInRange, h1, h2]
  have hitem : ((s.tbs.findItem plu).any fun e => e.basis == .each) = false := by
    cases hf : s.tbs.findItem plu with
    | none => rfl
    | some e => simpa using hi e hf
  have hsale : s.openSale?.isNone = false := by rw [← Option.not_isSome, ho]; rfl
  simp [captureRefusal, hplu, hc, hs, hsale, hitem]

/-- A held read that may start its capture takes the slot (R167). -/
theorem captureEmptied_starts {s : State} {x : HeldScan} (hx : s.acp.held = some x) (ho : s.openSale?.isSome = true)
    (hr : captureRefusal x.plu s = none) :
    captureEmptied s = raiseAccessory .scanConsumed x.frame.unit none none
      { beginCapture x.plu .scan s with acp := s.acp.release x } := by
  rw [captureEmptied, hx]
  simp only [if_pos ho]
  rw [startHeld, hr]

/-- Settles O16: the capture ends, and what the empty slot does with a held read. -/
theorem captureTimeoutEndsTheCapture : Obligations.CaptureTimeoutEndsTheCapture := by
  unfold Obligations.CaptureTimeoutEndsTheCapture
  intro s c hc
  have he : captureTimeout s = captureEmptied (endCapture .timeout (reach c.due s)) := by
    rw [captureTimeout, hc]
    exact finishCapture_some (c := c) hc
  have hend := endCapture_some (r := .timeout) (s := reach c.due s) (c := c) hc
  have hcap := endCapture_capture .timeout (reach c.due s)
  refine does_of (f := captureTimeout) rfl ?_ (.inr (by simp)) ?_
  · rw [he]
    refine ((reach_works c.due s).mono (by simp) (by simp)).trans
      (((endCapture_works .timeout _).mono (by simp) (by simp)).trans ((captureEmptied_works _).mono (by simp) (by simp)))
  · rw [he, finish_clock, finish_acp_held, finish_wch]
    refine ⟨?_, ?_, captureEmptied_held hcap, fun hheld => ?_, fun x hx h1 h2 hs ho hi => ?_⟩
    · obtain ⟨_, _, _, hparts, _⟩ := captureEmptied_works (endCapture .timeout (reach c.due s))
      exact (hparts .clock (by simp)).trans (by rw [hend]; rfl)
    · refine Standing.finish s (Standing.captureEmptied ?_ (by simp [Notice.kind])) (by simp [Notice.kind])
      rw [hend]
      exact standing_raise _ _
    · have hempty : (endCapture .timeout (reach c.due s)).acp.held = none := by rw [hend]; exact hheld
      rw [captureEmptied_of_empty hempty, hend]
      show { s.wch with capture := none, tare := s.wch.tare.lapse, lateCancel := true } = _
      congr 1
    · have hrefusal : captureRefusal x.plu (endCapture .timeout (reach c.due s)) = none := by
        rw [hend] at hcap ⊢
        exact captureRefusal_none h1 h2 hcap hs ho hi
      have hheld : (endCapture .timeout (reach c.due s)).acp.held = some x := by rw [hend]; exact hx
      have hopen : (endCapture .timeout (reach c.due s)).openSale?.isSome = true := by rw [hend]; exact ho
      rw [captureEmptied_starts hheld hopen hrefusal]
      exact ⟨_, rfl, rfl, rfl⟩

/-! ## FAULT (R2, R7) -/

/-- The channel on entering FAULT, field by field (R7). -/
theorem faultedWch_eq (c : FaultCause) (s : State) :
    faultedWch c s = { s.wch with
      state := .fault, faultCause := some c, refill := none, watch := none, tare := .none, trackDue := none
      zeroOut := false, testOffset := none, cal := none, capture := none
      lateCancel := (endCapture .fault s).wch.lateCancel } := by
  unfold faultedWch
  rw [endStep_wch, endCapture_wch]
  rfl

/-- Settles O14: the watch's expiry is the entry into FAULT. -/
theorem converterLossEntersFault : Obligations.ConverterLossEntersFault := by
  unfold Obligations.ConverterLossEntersFault
  intro s due hdue hstate
  have he : watchExpires s = enterFault .converter (reach due s) := by
    rw [watchExpires, hdue]
    exact if_neg hstate
  have hfault : (reach due s).wch.state ≠ .fault := hstate
  obtain ⟨hwch, hwindow⟩ := enterFault_wch .converter hfault
  obtain ⟨hweight, hcapture, hcal⟩ := enterFault_notices .converter hfault
  obtain ⟨_, _, _, hparts, _⟩ := enterFault_works .converter (reach due s)
  have hclock : (enterFault .converter (reach due s)).clock = max s.clock due := by
    refine hparts .clock ?_
    unfold State.slotParts State.holdParts
    split <;> split <;> simp
  refine does_of (f := watchExpires) rfl ?_ (.inr (by simp)) ?_
  · rw [he]
    exact ((reach_works due s).mono (by simp) (by simp)).trans
      ((enterFault_works .converter (reach due s)).mono (List.subset_cons_self ..) (fun _ => id))
  · rw [he, finish_clock, finish_wch]
    refine ⟨hclock, ?_⟩
    rw [faultedWch_eq] at hwch hwindow
    refine ⟨by rw [hwch], by rw [hwch], by rw [hwch], by rw [hwch], by rw [hwch], by rw [hwch], by rw [hwch], by rw [hwch]; rfl,
      by rw [hwch]; rfl, by rw [hwch]; rfl, fun hn => by rw [hwindow hn]; rfl, hweight.finish_weight s,
      fun c hc => (hcapture c hc).finish s (by simp [Notice.kind]),
      fun x y hx hy => (hcal x y hx hy).finish s (by simp [Notice.kind])⟩

/-! ## Restarts (R6, R8, R24, R25) -/

theorem restart_notices (c : RestartCause) {s : State} {k : Capture} (h : s.wch.capture = some k) :
    Standing (restart c s) (.capture k.source .fault none) := by
  have hend : Standing (endCapture .fault s) (.capture k.source .fault none) := by
    rw [endCapture_some h]
    exact standing_raise _ _
  unfold restart
  rw [if_pos (by rw [h]; rfl)]
  exact Standing.captureEmptied (hend.of_notices rfl) (by simp [Notice.kind])

theorem slotParts_eq {s u : State} (h : u.wch.capture = s.wch.capture) : u.slotParts = s.slotParts := by
  rw [State.slotParts, State.slotParts, h]

/-- A request that restarts the channel, with another part of it changed first (R6, R24, R25). -/
theorem serves_restart {i : Instr} {tag : Byte} {h : State → State × Reply} {s : State} {c : RestartCause}
    {w : Wch → Wch} (he : exec i s = request i tag h s) (hw : ∀ x, (w x).capture = x.capture)
    (hh : ∀ u, AtRouter i s u → h u = okay [] (restart c { u with wch := w u.wch })) :
    Serves i tag s .ok (fun _ => []) (.weighing :: s.slotParts) [2, 3, 14] fun u t =>
      t.wch = (endCapture .fault { u with wch := w u.wch }).wch.restarted c u.clock ∧
      (u.wch.capture = none → t.wch = (w u.wch).restarted c u.clock) ∧
      ∀ k, u.wch.capture = some k → Notified t (.capture k.source .fault none) := by
  refine serves_of he fun u hu => ?_
  rw [hh u hu]
  have hparts : State.slotParts { u with wch := w u.wch } = s.slotParts :=
    slotParts_eq ((hw u.wch).trans (by rw [hu.wch]))
  have hrestart := restart_works c { u with wch := w u.wch }
  rw [hparts] at hrestart
  refine ⟨rfl, ((with_wch_works _ u).mono (by simp) (by simp)).trans (hrestart.mono (fun _ => id) (by simp)),
    .inr (by simp), by rw [finish_wch]; exact restart_wch c _, fun hn => ?_, fun k hk => ?_⟩
  · rw [finish_wch]
    exact congrArg State.wch (restart_wch_of_empty (s := { u with wch := w u.wch }) ((hw _).trans hn))
  · exact Standing.finish s ((restart_notices c (s := { u with wch := w u.wch }) ((hw _).trans hk)).of_notices
    (t := respond _ _) rfl) (by simp [Notice.kind])

theorem Serves.imp {i : Instr} {tag : Byte} {s : State} {v : Verdict} {fs : State → List Field} {ps : List Part}
    {ks : List Nat} {P Q : State → State → Prop} (h : Serves i tag s v fs ps ks P)
    (himp : ∀ u t, AtRouter i s u → P u t → Q u t) : Serves i tag s v fs ps ks Q := fun u hu => by
  obtain ⟨t, ht, ha, hc, hP⟩ := h u hu
  exact ⟨t, ht, ha, hc, himp u t hu hP⟩

theorem slotsEmpty_iff (s : State) : s.slotsEmpty = true ↔ s.sru.openSlot = none ∧ s.sru.closing = none := by
  simp [State.slotsEmpty]

theorem AtRouter.slotsEmpty {i : Instr} {s u : State} (h : AtRouter i s u) : u.slotsEmpty = s.slotsEmpty := by
  obtain ⟨q, rfl⟩ := h.eq
  rfl

/-- Settles O17: each restart is served, and refused in the other states. -/
theorem restartsEmptyTheRing : Obligations.RestartsEmptyTheRing := by
  unfold Obligations.RestartsEmptyTheRing
  refine fun tag s => ⟨fun htest hcal => ?_, fun h => ?_, fun offset ho hc hs => ?_, fun offset h => ?_, fun h => ?_, fun h => ?_⟩
  · refine (serves_restart (h := weighRestart) (c := .weighRestart) (w := id) rfl (fun _ => rfl) fun u hu => ?_).imp
      fun u t hu ⟨hw, _, hn⟩ => ?_
    · rw [weighRestart, if_neg (by rw [hu.wch]; simp [htest, hcal])]
      rfl
    · rw [hw, endCapture_wch]
      exact ⟨rfl, rfl, rfl, rfl, rfl, rfl, rfl, rfl, rfl, rfl, rfl, rfl, rfl, hn⟩
  · exact refuses_of (h := weighRestart) rfl fun u hu => if_pos (by rw [hu.wch]; exact h)
  · refine (serves_restart (h := weighTestOn offset) (c := .testOn) (w := fun w => { w with testOffset := some offset }) rfl
      (fun _ => rfl) fun u hu => ?_).imp fun u t hu ⟨hw, hnone, _⟩ => ?_
    · exact if_pos ⟨by rw [hu.slotsEmpty]; exact (slotsEmpty_iff s).mpr ⟨ho, hc⟩, by rw [hu.wch]; exact hs⟩
    · refine ⟨by rw [hw, endCapture_wch]; rfl, by rw [hw, endCapture_wch]; rfl, by rw [hw]; rfl, by rw [hw]; rfl,
        by rw [hw, endCapture_wch]; rfl, by rw [hw, endCapture_wch]; rfl, fun hn => ?_, by rw [hw]; rfl⟩
      rw [hnone hn]
      rfl
  · refine refuses_of (h := weighTestOn offset) rfl fun u hu => if_neg ?_
    rw [hu.slotsEmpty, slotsEmpty_iff, hu.wch]
    rintro ⟨⟨ho, hc⟩, hs⟩
    rcases h with h | h | ⟨h, h'⟩
    · exact h ho
    · exact h hc
    · exact hs.elim h h'
  · refine (serves_restart (h := weighTestOff) (c := .testOff) (w := fun w => { w with testOffset := none }) rfl
      (fun _ => rfl) fun u hu => ?_).imp fun u t hu ⟨hw, hnone, _⟩ => ?_
    · exact if_pos (by rw [hu.wch]; exact h)
    · refine ⟨by rw [hw, endCapture_wch]; rfl, by rw [hw, endCapture_wch]; rfl, by rw [hw]; rfl, by rw [hw]; rfl,
        by rw [hw, endCapture_wch]; rfl, by rw [hw, endCapture_wch]; rfl, fun hn => ?_, by rw [hw]; rfl⟩
      rw [hnone hn]
      rfl
  · exact refuses_of (h := weighTestOff) rfl fun u hu => if_neg (by rw [hu.wch]; exact h)

end Sys2Proof.Machine
end

section
/-! Proofs about zero tracking and the disturbance window (R13, R18), and the requests of zero, tare and capture (R12, R14,
R16, R19, R22). -/

namespace Sys2Proof.Machine

open Sys2Proof

/-! ## Zero tracking (R13) -/

theorem record_valid {s : State} {r : CalRecord} (h : s.record? = some r) :
    r = s.sst.image.record ∧ s.sst.state ≠ .damaged ∧ r.valid = true := by
  unfold State.record? at h
  split at h
  · rename_i hv
    cases h
    simpa using hv
  · cases h

/-- The counts of a mass that is not negative are not negative under a valid record (R29). -/
theorem counts_nonneg {s : State} {r : CalRecord} (h : s.record? = some r) (num den : Nat) : 0 ≤ r.counts num den := by
  obtain ⟨_, _, hv⟩ := record_valid h
  rw [CalRecord.valid, Bool.and_eq_true, decide_eq_true_eq] at hv
  have hsc : 0 ≤ r.sc := by omega
  have hnum : ¬((num : Int) * r.sc < 0) := by
    have := mul_nonneg (Int.natCast_nonneg num) hsc
    omega
  rw [CalRecord.counts, roundHalfAway, if_neg hnum]
  exact Int.natCast_nonneg _

theorem trackedZero_eq {r : CalRecord} (hl : 0 ≤ r.counts r.e1 2) (zo g : Int) :
    r.trackedZero zo g = zo + max (-r.counts r.e1 2) (min (r.counts r.e1 2) (r.counts g 10)) := by
  unfold CalRecord.trackedZero
  dsimp only
  generalize r.counts r.e1 2 = l at hl ⊢
  generalize r.counts g 10 = c
  split
  · omega
  · split <;> omega

/-- One tracking step in one line: Zo held to the zero band, and the zero-limit bit by where the step would land. -/
theorem track_held (w : Wch) (r : CalRecord) (zi f g : Int) :
    w.track r zi f g =
      { w.moveZero r (max (zi - r.zeroBand) (min (zi + r.zeroBand) (r.trackedZero w.zo g))) f with
        zeroLimit :=
          if r.trackedZero w.zo g < zi - r.zeroBand ∨ zi + r.zeroBand < r.trackedZero w.zo g then true
          else if r.trackedZero w.zo g = zi - r.zeroBand ∨ r.trackedZero w.zo g = zi + r.zeroBand then w.zeroLimit
          else false } := by
  unfold Wch.track
  dsimp only
  generalize r.trackedZero w.zo g = moved
  have hband : (0 : Int) ≤ r.zeroBand := Int.natCast_nonneg _
  generalize (r.zeroBand : Int) = band at hband ⊢
  split
  · rename_i h
    rw [if_pos (.inr h), show max (zi - band) (min (zi + band) moved) = zi + band by omega]
  · split
    · rename_i h
      rw [if_pos (.inl h), show max (zi - band) (min (zi + band) moved) = zi - band by omega]
    · rw [if_neg (show ¬(moved < zi - band ∨ zi + band < moved) by omega),
        show max (zi - band) (min (zi + band) moved) = moved by omega]
      simp only [or_comm]

theorem trackZero_takes {s : State} {u : Update} {g : Figures} {zi : Int} {r : CalRecord} (hu : s.wch.last = some u)
    (hg : u.figures = some g) (hz : s.wch.zi = some zi) (hr : s.record? = some r) (hs : s.wch.stable = true)
    (hd : s.wch.disturbed = false) (ht : s.wch.tare = .none) (hc : s.wch.capture = none) (hn : g.gross.natAbs ≤ 5 * r.e1) :
    trackZero s = { s with wch := s.wch.track r zi u.f g.gross } := by
  unfold trackZero
  simp [hu, hg, hz, hr, hs, hd, ht, hc, hn]

theorem disturbed_eq_false_iff (w : Wch) : w.disturbed = false ↔ w.window = .closed := by
  unfold Wch.disturbed
  split
  · rename_i h
    simp [h]
  · rename_i h
    simp [h]

/-- Without one of its conditions the tracking step is not taken (R13). -/
theorem trackZero_waits {s : State}
    (h : s.wch.stable = false ∨ s.wch.window ≠ .closed ∨ s.wch.tare ≠ .none ∨ s.wch.capture ≠ none ∨ s.wch.zi = none ∨
      s.record? = none ∨ (∀ up, s.wch.last = some up → up.figures = none) ∨
      (∃ up g r, s.wch.last = some up ∧ up.figures = some g ∧ s.record? = some r ∧ 5 * r.e1 < g.gross.natAbs)) :
    trackZero s = s := by
  unfold trackZero
  split
  · rename_i u g zi r hu hg hz hr
    refine if_neg fun hall => ?_
    simp only [hu, Option.bind_some] at hg
    simp only [Bool.and_eq_true, Bool.not_eq_true', disturbed_eq_false_iff, beq_iff_eq, Option.isNone_iff_eq_none,
      decide_eq_true_eq] at hall
    obtain ⟨⟨⟨⟨hs, hd⟩, ht⟩, hc⟩, hn⟩ := hall
    rcases h with h | h | h | h | h | h | h | ⟨u', g', r', hu', hg', hr', hfar⟩
    · rw [hs] at h; cases h
    · exact h hd
    · exact h ht
    · exact h hc
    · rw [hz] at h; cases h
    · rw [hr] at h; cases h
    · rw [h u hu] at hg; cases hg
    · rw [hu] at hu'; cases hu'
      rw [hg] at hg'; cases hg'
      rw [hr] at hr'; cases hr'
      omega
  · rfl

/-- WEIGHT is raised at the end of an event that changes one of its bits (R26). -/
theorem detail_ne_of_bits {v w : Wch} (h : v.bits ≠ w.bits) : v.detail ≠ w.detail := fun he => by
  injection he with _ hb
  exact h hb

theorem detail_ne_of_zeroLimit {v w : Wch} (h : v.zeroLimit ≠ w.zeroLimit) : v.detail ≠ w.detail :=
  detail_ne_of_bits fun he => h (congrArg WeightBits.zeroLimit he)

theorem detail_ne_of_disturbed {v w : Wch} (h : v.disturbed ≠ w.disturbed) : v.detail ≠ w.detail :=
  detail_ne_of_bits fun he => h (congrArg WeightBits.disturbed he)

theorem detail_ne_of_tareActive {v w : Wch} (h : (v.tare != .none) ≠ (w.tare != .none)) : v.detail ≠ w.detail :=
  detail_ne_of_bits fun he => h (congrArg WeightBits.tareActive he)

/-- Settles O15: the expiry with and without its step, then the window's closing. -/
theorem trackingAndWindowTimersAct : Obligations.TrackingAndWindowTimersAct := by
  unfold Obligations.TrackingAndWindowTimersAct
  refine ⟨fun s due hdue hstate => ?_, fun s due hw => ?_⟩
  · let again : State := reach due { s with wch := { s.wch with trackDue := some (due + 1000000) } }
    have he : trackingExpires s = trackZero again := by
      rw [trackingExpires, hdue]
      exact if_pos hstate
    have hworks : Works [.clock, .weighing] [] s again :=
      ((with_wch_works _ s).mono (by simp) (by simp)).trans ((reach_works due _).mono (by simp) (by simp))
    refine ⟨fun up g zi r hu hg hz hr hs hd ht hc hn => ?_, fun h => ?_⟩
    · have htake := trackZero_takes (s := again) hu hg hz hr hs ((disturbed_eq_false_iff _).mpr hd) ht hc hn
      rw [track_held, trackedZero_eq (counts_nonneg hr r.e1 2)] at htake
      refine does_of (f := trackingExpires) rfl ?_ (.inr (by simp)) ?_
      · rw [he, htake]
        exact (hworks.mono (fun _ => id) (by simp)).trans ((with_wch_works _ again).mono (by simp) (by simp))
      · rw [he, htake, finish_clock, finish_wch]
        exact ⟨rfl, rfl, rfl, rfl, rfl, fun hne => notified_weight (detail_ne_of_zeroLimit (Ne.symm hne)), rfl, rfl, rfl⟩
    · have hwait : trackZero again = again := trackZero_waits h
      refine does_of (f := trackingExpires) rfl ?_ (.inl ?_) ?_
      · rw [he, hwait]
        exact hworks
      · rw [he, hwait]
        rfl
      · rw [he, hwait, finish_clock, finish_wch]
        exact ⟨rfl, rfl⟩
  · have he : windowCloses s = { reach due s with wch := { s.wch with window := .closed } } := by
      rw [windowCloses, hw]
    refine does_of (f := windowCloses) rfl ?_ (.inr (by simp)) ?_
    · rw [he]
      exact ((reach_works due s).mono (by simp) (by simp)).trans ((with_wch_works _ (reach due s)).mono (by simp) (by simp))
    · rw [he, finish_clock, finish_wch]
      refine ⟨rfl, rfl, notified_weight (detail_ne_of_disturbed ?_)⟩
      simp [Wch.disturbed, hw]

/-! ## WEIGH_ZERO and WEIGH_TARE (R12, R14) -/

/-- Settles O18: the two requests in the state in which they are taken. -/
theorem weighZeroAndTareTakeTheGrossLoad : Obligations.WeighZeroAndTareTakeTheGrossLoad := by
  unfold Obligations.WeighZeroAndTareTakeTheGrossLoad
  refine ⟨fun tag s up zi r hstate hc ht hd hs hl hz hr hhigh hlow => ?_,
    fun tag s up g r hstate hc hd hs hover hunder hl hg hr => ?_⟩
  · have he (u : State) (hu : AtRouter (.weighZero tag) s u) : weighZero u =
        if r.zeroBand < (up.f - r.zc - zi).natAbs then refuse .range u
        else okay [] { u with wch := { u.wch.moveZero r (up.f - r.zc) up.f with zeroLimit := false } } := by
      have hd' := (disturbed_eq_false_iff s.wch).mpr hd
      simp [weighZero, hu.wch, hu.record, hstate, hc, ht, hd', hs, hl, hz, hr, hhigh, hlow]
    refine ⟨fun hnear => serves_of (h := weighZero) rfl fun u hu => ?_,
      fun hfar => refuses_of (h := weighZero) rfl fun u hu => by rw [he u hu]; exact if_pos hfar⟩
    rw [he u hu, if_neg (show ¬r.zeroBand < _ from Nat.not_lt.mpr hnear)]
    exact ⟨rfl, (with_wch_works _ u).mono (fun _ => id) (by simp), .inr (by simp), by rw [finish_wch]; rfl⟩
  · have he (u : State) (hu : AtRouter (.weighTare tag) s u) : weighTare u =
        if g.gross ≤ 0 then refuse .range u
        else if (r.max1 * 10 : Nat) < g.gross then refuse .range u
        else if roundHalfAway g.gross (10 * r.e1) ≤ 0 then refuse .range u
        else setTare (.weighed (10 * r.e1 * (roundHalfAway g.gross (10 * r.e1)).toNat)) u := by
      have hd' := (disturbed_eq_false_iff s.wch).mpr hd
      simp [weighTare, hu.wch, hu.record, hstate, hc, hd', hs, hover, hunder, hl, hg, hr]
    refine ⟨fun hpos hmax hround => serves_of (h := weighTare) rfl fun u hu => ?_,
      fun hbad => refuses_of (h := weighTare) rfl fun u hu => ?_⟩
    · rw [he u hu, if_neg (by omega), if_neg (by omega), if_neg (by omega)]
      refine ⟨?_, setTare_works _ u, .inr List.mem_cons_self, ?_, ?_⟩
      · rw [setTare_eq, Tare.value, Nat.mul_assoc, Nat.mul_div_cancel_left _ (by decide), okay]
      · rw [finish_wch, respond_wch, setTare_wch]
      · rw [finish_wch, respond_wch]
        exact setTare_notified _ s u _
    · rw [he u hu]
      rcases hbad with h | h
      · rw [if_pos h]
      · rw [if_pos h, ite_self]

/-! ## WEIGH_CAPTURE and WEIGH_CANCEL (R16, R19, R22) -/

section
variable {plu : Nat} {s : State}

theorem captureRefusal_range (h : plu < 1 ∨ 999999 < plu) : captureRefusal plu s = some .range := by
  have hplu : pluInRange plu = false := by
    simp [pluInRange]
    omega
  simp [captureRefusal, hplu]

theorem captureRefusal_busy (h1 : 1 ≤ plu) (h2 : plu ≤ 999999) (hc : s.wch.capture ≠ none) :
    captureRefusal plu s = some .busy := by
  simp [captureRefusal, pluInRange, h1, h2, Option.isSome_iff_ne_none.mpr hc]

theorem captureRefusal_state (h1 : 1 ≤ plu) (h2 : plu ≤ 999999) (hc : s.wch.capture = none)
    (h : s.wch.state ≠ .running ∨ s.openSale? = none) : captureRefusal plu s = some .state := by
  by_cases hs : s.wch.state = .running
  · have ho : s.openSale? = none := h.resolve_left fun hn => hn hs
    simp [captureRefusal, pluInRange, h1, h2, hc, hs, ho]
  · simp [captureRefusal, pluInRange, h1, h2, hc, hs]

theorem captureRefusal_each (h1 : 1 ≤ plu) (h2 : plu ≤ 999999) (hc : s.wch.capture = none) (hs : s.wch.state = .running)
    (ho : s.openSale? ≠ none) {e : ItemEntry} (he : s.tbs.findItem plu = some e) (hb : e.basis = .each) :
    captureRefusal plu s = some .notWeighed := by
  simp [captureRefusal, pluInRange, h1, h2, hc, hs, ho, he, hb]

theorem AtRouter.captureRefusal {i : Instr} {u : State} (h : AtRouter i s u) (plu : Nat) :
    captureRefusal plu u = captureRefusal plu s := by
  obtain ⟨q, rfl⟩ := h.eq
  rfl

theorem weighCapture_refused {tag : Byte} {r : Reason} (h : captureRefusal plu s = some r) :
    weighCapture tag plu s = refuse r s := by
  rw [weighCapture, h]

/-- The ITEM tare at the start of a capture whose tare was NONE (R16). -/
theorem itemTare_eq (r : CalRecord) (item : Option ItemEntry) :
    itemTare r item =
      match item.bind ItemEntry.presetTare with
      | none => .none
      | some p =>
        let grams := r.e1 * (roundHalfAway p r.e1).toNat
        if grams = 0 then .none else .item (min grams r.max1 * 10) := by
  unfold itemTare
  split
  · rename_i h
    simp only [h]
  · rename_i p h
    simp only [h, roundTare_eq]

end

/-- Settles O20: the refusals of WEIGH_CAPTURE in their order, its start of a capture, and WEIGH_CANCEL. -/
theorem capturesAreTakenAndCancelled : Obligations.CapturesAreTakenAndCancelled := by
  unfold Obligations.CapturesAreTakenAndCancelled
  have refused {tag : Byte} {plu : Nat} {s : State} {r : Reason} (h : captureRefusal plu s = some r) :
      Refuses (.weighCapture tag plu) tag s r :=
    refuses_of (h := weighCapture tag plu) rfl fun u hu => weighCapture_refused ((hu.captureRefusal plu).trans h)
  refine ⟨fun tag plu s => ⟨fun h => refused (captureRefusal_range h), fun h1 h2 hc => refused (captureRefusal_busy h1 h2 hc),
    fun h1 h2 hc h => refused (captureRefusal_state h1 h2 hc h), fun h1 h2 hc hs ho =>
      ⟨fun e he hb => refused (captureRefusal_each h1 h2 hc hs ho he hb), fun hi => ?_⟩⟩, fun tag s => ⟨fun c hc => ?_, fun hc => ?_⟩⟩
  · refine serves_of (h := weighCapture tag plu) rfl fun u hu => ?_
    have he : weighCapture tag plu u = accept (beginCapture plu (.request tag) u) := by
      rw [weighCapture, hu.captureRefusal,
        captureRefusal_none h1 h2 hc hs (Option.isSome_iff_ne_none.mpr ho) hi]
    rw [he, finish_wch]
    refine ⟨rfl, (beginCapture_works plu _ u).mono (fun _ => id) (by simp), .inr (by simp), rfl, rfl, rfl, rfl, fun ht => ?_,
      fun r ht hr => ⟨?_, fun hset => notified_weight (detail_ne_of_tareActive ?_)⟩⟩
    · show tareAtStart u _ = _
      unfold tareAtStart
      split
      · rename_i h _
        exact absurd h ht
      · rfl
    · show tareAtStart u _ = _
      unfold tareAtStart
      rw [ht, hr]
      exact itemTare_eq r _
    · rw [← hu.wch, ht]
      simpa using hset
  · refine serves_of (h := weighCancel) rfl fun u hu => ?_
    have hcu : u.wch.capture = some c := by rw [hu.wch]; exact hc
    have he : weighCancel u = okay [] (captureEmptied (endCapture .cancelled u)) := by
      rw [weighCancel, if_pos (by rw [hcu]; rfl), finishCapture_some hcu]
    rw [he, finish_respond_acp, finish_wch]
    refine ⟨rfl, ((endCapture_works _ u).mono (by simp) (by simp)).trans ((captureEmptied_works _).mono (by simp) (by simp)),
      .inr (by simp), ?_, captureEmptied_held (endCapture_capture _ _), fun hh => ?_⟩
    · have hstands : Standing (endCapture .cancelled u) (.capture c.source .cancelled none) := by
        rw [endCapture_some hcu]
        exact standing_raise _ _
      exact Standing.finish s ((Standing.captureEmptied hstands (by simp [Notice.kind])).of_notices (t := respond _ _) rfl)
        (by simp [Notice.kind])
    · have hempty : (endCapture .cancelled u).acp.held = none := by
        rw [endCapture_some hcu]
        exact hh
      show (captureEmptied _).wch.capture = _ ∧ (captureEmptied _).wch.lateCancel = _
      rw [captureEmptied_of_empty hempty, endCapture_some hcu]
      exact ⟨rfl, rfl⟩
  · refine refuses_of (h := weighCancel) rfl fun u hu => ?_
    rw [weighCancel, hu.wch, if_neg (by rw [hc]; decide)]
    split <;> rfl

end Sys2Proof.Machine
end

section
/-! Proofs about the samples and the filtered update (R1, R3, R10, R24, R26, R30 to R34). -/

namespace Sys2Proof.Machine

open Sys2Proof

/-! ## Rounding half away from zero -/

/-- Twice the rounded quotient times the divisor lies within a divisor of twice the number. -/
theorem roundedQuotient_bounds (n : Nat) {d : Nat} (hd : 0 < d) :
    2 * (d * ((2 * n + d) / (2 * d))) ≤ 2 * n + d ∧ 2 * n < 2 * (d * ((2 * n + d) / (2 * d))) + d := by
  have hle := Nat.mul_div_le (2 * n + d) (2 * d)
  have hlt := Nat.lt_mul_div_succ (2 * n + d) (show 0 < 2 * d by omega)
  rw [Nat.mul_assoc] at hle hlt
  rw [Nat.mul_add] at hlt
  omega

theorem roundHalfAway_nearest (x : Int) {d : Nat} (hd : 0 < d) :
    (2 * (x - d * roundHalfAway x d)).natAbs ≤ d ∧
    ((2 * (x - d * roundHalfAway x d)).natAbs = d → x.natAbs < (d * roundHalfAway x d).natAbs) := by
  obtain ⟨hle, hlt⟩ := roundedQuotient_bounds x.natAbs hd
  unfold roundHalfAway
  split
  · rw [Int.mul_neg, ← Int.natCast_mul]
    omega
  · rw [← Int.natCast_mul]
    omega

/-! ## The stability reference (R10) -/

theorem judge_starts {w : Wch} {value : Int} {band : Nat}
    (h : w.window ≠ .closed ∨ w.stabRef = none ∨ ∃ ref, w.stabRef = some ref ∧ (band : Int) < |value - ref|) :
    w.judge value band = { w with stabRef := some value, stabCount := 0 } := by
  unfold Wch.judge
  split
  · rfl
  · rename_i hd
    have hclosed := (disturbed_eq_false_iff w).mp (by simpa using hd)
    split
    · rfl
    · rename_i ref hr
      refine if_neg fun hin => ?_
      rcases h with h | h | ⟨ref', hr', hout⟩
      · exact h hclosed
      · rw [hr] at h; cases h
      · rw [hr] at hr'; cases hr'
        rw [Int.abs_eq_natAbs] at hout
        omega

theorem judge_stays {w : Wch} {value ref : Int} {band : Nat} (hw : w.window = .closed) (hr : w.stabRef = some ref)
    (h : |value - ref| ≤ band) : w.judge value band = { w with stabCount := min 200 (w.stabCount + 1) } := by
  have hd := (disturbed_eq_false_iff w).mpr hw
  rw [Int.abs_eq_natAbs] at h
  simp only [Wch.judge, hd, hr]
  rw [if_neg Bool.false_ne_true, if_pos (by omega)]

/-! ## A sample (R1, R2, R24) -/

/-- The channel with the sample `v` in its ring (R1 to R3). -/
def State.entered (v : Int) (s : State) : State :=
  { reach s.wch.sampleDue s with
    wch := { s.wch.enter (s.substitute v) (max s.clock s.wch.sampleDue) with
      cal := s.wch.cal.map fun c => c.add (s.substitute v) } }

theorem entered_works (v : Int) (s : State) : Works [.clock, .weighing] [] s (s.entered v) :=
  ((reach_works s.wch.sampleDue s).mono (by simp) (by simp)).trans
    ((with_wch_works _ (reach s.wch.sampleDue s)).mono (by simp) (by simp))

theorem sampleRead_fault {v : Int} {s : State} (h : s.wch.state = .fault) : sampleRead v s = s := if_pos h

theorem sampleRead_few {v : Int} {s : State} (h : s.wch.state ≠ .fault)
    (hn : min 64 (s.wch.count + 1) < s.lli.params.filterLength) : sampleRead v s = s.entered v := by
  rw [sampleRead, if_neg h]
  exact if_neg (Nat.not_le.mpr hn)

theorem sampleRead_full {v : Int} {s : State} (h : s.wch.state ≠ .fault)
    (hn : s.lli.params.filterLength ≤ min 64 (s.wch.count + 1)) : sampleRead v s = filteredUpdate (s.entered v) := by
  rw [sampleRead, if_neg h]
  exact if_pos hn

theorem substitute_of_not_test {v : Int} {s : State} (h : s.wch.state ≠ .test) : s.substitute v = v := by
  unfold State.substitute
  split
  · contradiction
  · rfl

theorem substitute_test {v o : Int} {s : State} (h : s.wch.state = .test) (ho : s.wch.testOffset = some o) :
    s.substitute v = max (-8388608) (min 8388607 (s.sst.image.record.zc + s.wch.zo + o)) := by
  unfold State.substitute
  rw [h, ho]
  rfl

/-! ## The filtered update (R3) -/

theorem contains_eq_decide (l : List Int) (x : Int) : l.contains x = decide (x ∈ l) := by
  rw [Bool.eq_iff_iff]
  simp

/-- The samples that the update averages, and what it forms of them under a record (R3, R30 to R33). -/
theorem formUpdate_eq {x : State} {r : CalRecord} (hr : x.record? = some r) :
    formUpdate x = ⟨filteredValue x.lli.params.filterLength x.wch.ring,
      decide ((8388607 : Int) ∈ x.wch.ring.take x.lli.params.filterLength),
      decide ((-8388608 : Int) ∈ x.wch.ring.take x.lli.params.filterLength),
      some (r.figures x.wch.zo x.wch.tare (filteredValue x.lli.params.filterLength x.wch.ring))⟩ := by
  rw [formUpdate, hr, contains_eq_decide, contains_eq_decide]
  rfl

/-- The update formed, the bits set and the checks run, once the refill has ended (R3). -/
def State.updated (r : State) : State := updateChecks (formUpdate r) (r.indicate (formUpdate r))

theorem filteredUpdate_eq {e r : State} (hr : refillEnd e = r) (h : r.wch.state ≠ .fault) : filteredUpdate e = r.updated := by
  rw [filteredUpdate, hr]
  exact if_neg h

theorem refillEnd_none {e : State} (h : e.wch.refill = none) : refillEnd e = e := by
  rw [refillEnd, h]

theorem captureParts_congr {s t : State} (hc : t.wch.capture = s.wch.capture) (hpen : t.pen = s.pen) (hpbu : t.pbu = s.pbu)
    (htbs : t.tbs = s.tbs) : t.captureParts = s.captureParts := by
  simp only [State.captureParts, hc, printParts_eq hpen hpbu htbs]

/-- The judge keeps the capture slot, and so does the whole work on the bits. -/
theorem indicate_wch (u : Update) (r : State) :
    (r.indicate u).wch = { r.wch with
      stabRef := (r.indicate u).wch.stabRef, stabCount := (r.indicate u).wch.stabCount, last := some u
      ind := (r.indicate u).wch.ind } := by
  unfold State.indicate
  dsimp only
  rw [judge_eq]

theorem indicate_works (u : Update) (r : State) : Works [.weighing] [] r (r.indicate u) := with_wch_works _ r

theorem updated_works (r : State) : Works (.weighing :: r.captureParts) [2, 3, 4, 7, 12, 13, 14] r r.updated := by
  have hparts : (r.indicate (formUpdate r)).captureParts = r.captureParts :=
    captureParts_congr (by rw [indicate_wch]) rfl rfl rfl
  have hchecks := (updateChecks_works (formUpdate r) (r.indicate (formUpdate r))).1
  rw [hparts] at hchecks
  exact ((indicate_works _ r).mono (by simp) (by simp)).trans hchecks

/-- The sample completes the ring, and the refill's end leaves the channel `w`, which is not in FAULT (R3, R5). -/
structure UpdatesTo (v : Int) (s : State) (w : Wch) : Prop where
  live    : s.wch.state ≠ .fault
  full    : s.lli.params.filterLength ≤ min 64 (s.wch.count + 1)
  refill  : refillEnd (s.entered v) = { s.entered v with wch := w }
  state   : w.state ≠ .fault
  kept    : w = { (s.entered v).wch with
    state := w.state, refill := w.refill, zeroOut := w.zeroOut, trackDue := w.trackDue }

/-- The state in which the update is formed. -/
def State.refilled (v : Int) (s : State) (w : Wch) : State := { s.entered v with wch := w }

section
variable {v : Int} {s : State} {w : Wch}

theorem UpdatesTo.capture (h : UpdatesTo v s w) : w.capture = s.wch.capture := by rw [h.kept]; rfl

theorem UpdatesTo.sampleRead (h : UpdatesTo v s w) : Machine.sampleRead v s = (s.refilled v w).updated := by
  rw [sampleRead_full h.live h.full]
  exact filteredUpdate_eq h.refill h.state

theorem refilled_works (v : Int) (s : State) (w : Wch) : Works [.clock, .weighing] [] s (s.refilled v w) :=
  (entered_works v s).trans ((with_wch_works w _).mono (by simp) (by simp))

theorem UpdatesTo.works (h : UpdatesTo v s w) :
    Works ([.clock, .weighing] ++ s.captureParts) [2, 3, 4, 7, 12, 13, 14] s (Machine.sampleRead v s) := by
  rw [h.sampleRead]
  have hparts : (s.refilled v w).captureParts = s.captureParts := captureParts_congr h.capture rfl rfl rfl
  have hupdated := updated_works (s.refilled v w)
  rw [hparts] at hupdated
  exact ((refilled_works v s w).mono (by simp) (by simp)).trans (hupdated.mono (fun p hp => by simp at hp ⊢; tauto) fun _ => id)

/-- A sample that forms an update, with what the update leaves of the channel and the clock. -/
theorem UpdatesTo.does (h : UpdatesTo v s w) {P : State → Prop}
    (hP : P (finish s (s.refilled v w).updated)) :
    Does (.sample v) s ([.clock, .weighing] ++ s.captureParts) [2, 3, 4, 7, 12, 13, 14] P :=
  does_of (f := Machine.sampleRead v) rfl h.works (.inr (by simp)) (by rw [h.sampleRead]; exact hP)

/-- No check of an update moves the clock. -/
theorem updated_clock (r : State) : r.updated.clock = r.clock := by
  obtain ⟨_, _, _, hparts, _⟩ := updated_works r
  refine hparts .clock ?_
  unfold State.captureParts
  split
  · have hsub := printParts_sub r
    simp only [List.mem_cons, List.mem_append, not_or]
    refine ⟨by decide, by decide, fun hmem => ?_⟩
    have := hsub _ hmem
    simp at this
  · simp

theorem entered_clock (v : Int) (s : State) : (s.entered v).clock = max s.clock s.wch.sampleDue := rfl

/-- With no refill the update is formed as the sample left the channel. -/
theorem updatesTo_of_no_refill (v : Int) {s : State} (hs : s.wch.state ≠ .fault)
    (hn : s.lli.params.filterLength ≤ min 64 (s.wch.count + 1)) (hr : s.wch.refill = none) :
    UpdatesTo v s (s.entered v).wch where
  live    := hs
  full    := hn
  refill  := refillEnd_none hr
  state   := hs
  kept    := rfl

end

theorem updated_steady {r : State} (h : r.wch.state ≠ .zeroPending) : Steady (r.indicate (formUpdate r)) r.updated :=
  (updateChecks_works _ _).2 (by rw [indicate_wch]; exact h)

/-- Settles O11: a sample discarded, one that enters, one that forms an update; the rounding, and the stability reference. -/
theorem samplesFillTheRingAndFormTheFigures : Obligations.SamplesFillTheRingAndFormTheFigures := by
  unfold Obligations.SamplesFillTheRingAndFormTheFigures
  refine ⟨fun v s => ⟨fun h => ?_, fun h hn => ?_, substitute_of_not_test, fun o => substitute_test⟩,
    fun v s r hs href hrec hn => ?_, fun x d => roundHalfAway_nearest x, fun w value band =>
      ⟨judge_starts, fun ref hw hr h => judge_stays hw hr h⟩⟩
  · refine does_of (f := sampleRead v) rfl ?_ (.inl ?_) trivial
    · rw [sampleRead_fault h]
      exact Works.refl _ _ s
    · rw [sampleRead_fault h]
  · have he := sampleRead_few (v := v) h hn
    refine does_of (f := sampleRead v) rfl (by rw [he]; exact entered_works v s) (.inl (by rw [he]; rfl)) ?_
    rw [he, finish_clock, finish_wch]
    exact ⟨rfl, rfl, rfl, rfl, rfl, rfl, rfl, rfl, rfl, rfl, rfl⟩
  · have hup := updatesTo_of_no_refill v (by rw [hs]; decide) hn href
    have hsub : s.substitute v = v := substitute_of_not_test (by rw [hs]; decide)
    obtain ⟨hring, _, hlast, hind⟩ := updated_steady (r := s.refilled v (s.entered v).wch)
      (show s.wch.state ≠ .zeroPending by rw [hs]; decide)
    have hring' : (s.refilled v (s.entered v).wch).wch.ring = (v :: s.wch.ring).take 64 := by
      show (s.substitute v :: s.wch.ring).take 64 = _
      rw [hsub]
    have hrec' : (s.refilled v (s.entered v).wch).record? = some r := hrec
    have hform := formUpdate_eq hrec'
    rw [hring'] at hform
    refine hup.does ?_
    rw [finish_clock, finish_wch, updated_clock, hring, hlast, hind]
    refine ⟨rfl, by rw [indicate_wch]; exact hring', congrArg some hform, rfl, ?_, ?_, ?_⟩
    · show ((formUpdate _).indication (State.record? _) _).centre = (((formUpdate _).indication (State.record? _) _).stable && _)
      rw [hform, hrec']
      rfl
    · show ((formUpdate _).indication (State.record? _) _).overload = _
      rw [hform, hrec', Bool.decide_or]
      rfl
    · show ((formUpdate _).indication (State.record? _) _).underload = _
      rw [hform, hrec', Bool.decide_or]
      rfl

end Sys2Proof.Machine
end

section
/-! Proofs about what a filtered update does (R5, R10, R11, R17, R23, R46, R48, R49). -/

namespace Sys2Proof.Machine

open Sys2Proof

/-! ## What the checks of an update leave of the channel -/

/-- Nothing of the channel changes but its tare, window, capture slot, interlock and calibration context. -/
def SlotOnly (s t : State) : Prop :=
  t.wch = { s.wch with
    tare := t.wch.tare, window := t.wch.window, capture := t.wch.capture, interlock := t.wch.interlock
    lateCancel := t.wch.lateCancel, cal := t.wch.cal }

theorem SlotOnly.refl (s : State) : SlotOnly s s := rfl

theorem SlotOnly.trans {s t u : State} (h : SlotOnly s t) (h' : SlotOnly t u) : SlotOnly s u := by
  unfold SlotOnly at *
  rw [h', h]

theorem WindowOnly.slotOnly {s t : State} (h : WindowOnly s t) : SlotOnly s t := by
  unfold SlotOnly
  rw [h.1]

theorem autoClearTare_slotOnly (u : Update) (s : State) : SlotOnly s (autoClearTare u s) := by
  unfold autoClearTare
  split
  · split <;> rfl
  · rfl

theorem captureEmptied_slotOnly (s : State) : SlotOnly s (captureEmptied s) := by
  have hdiscard : SlotOnly s (discardHeld s) := by
    unfold SlotOnly
    rw [discardHeld_wch]
  unfold captureEmptied
  split
  · rfl
  · split
    · unfold startHeld
      split
      · rfl
      · rfl
      · exact hdiscard
    · exact hdiscard

theorem completeCapture_slotOnly (u : Update) (s : State) : SlotOnly s (completeCapture u s) := by
  unfold completeCapture
  split
  · split
    · rename_i c g _ _ _ _ _
      have hpost := (postWeighed_window c g s).slotOnly
      exact (hpost.trans (show SlotOnly _ (closeCapture c _ _) from rfl)).trans (captureEmptied_slotOnly _)
    · rfl
  · rfl

/-- The interlock alone is what R23 clears. -/
theorem clearInterlock_eq (u : Update) (s : State) :
    clearInterlock u s = { s with wch := { s.wch with interlock := (clearInterlock u s).wch.interlock } } := by
  unfold clearInterlock
  dsimp only
  split <;> split <;> rfl

/-- An averaged step touches the calibration context alone. -/
theorem averageStep_wch (u : Update) (s : State) :
    (averageStep u s).wch = { s.wch with cal := (averageStep u s).wch.cal } := by
  unfold averageStep
  split
  · rfl
  · split
    · rfl
    · dsimp only
      split <;> rfl

/-- The checks after that of the initial zero (R17, R21, R23, R48). -/
def laterChecks (u : Update) (s : State) : State := averageStep u (clearInterlock u (completeCapture u (autoClearTare u s)))

theorem updated_eq (r : State) : r.updated = laterChecks (formUpdate r) (initialZero (formUpdate r) (r.indicate (formUpdate r))) :=
  rfl

theorem laterChecks_slotOnly (u : Update) (s : State) : SlotOnly s (laterChecks u s) := by
  have hclear : ∀ x, SlotOnly x (clearInterlock u x) := fun x => by rw [clearInterlock_eq]; rfl
  have haverage : ∀ x, SlotOnly x (averageStep u x) := fun x => by unfold SlotOnly; rw [averageStep_wch]
  exact ((autoClearTare_slotOnly u s).trans (completeCapture_slotOnly u _)).trans ((hclear _).trans (haverage _))

theorem completeCapture_none {u : Update} {s : State} (h : s.wch.capture = none) : completeCapture u s = s := by
  rw [completeCapture, h]

/-- With no capture waiting the later checks are those of the tare, the interlock and the averaged step. -/
theorem laterChecks_of_empty {u : Update} {s : State} (h : s.wch.capture = none) :
    laterChecks u s = averageStep u (clearInterlock u (autoClearTare u s)) := by
  rw [laterChecks, completeCapture_none ((autoClearTare_works u s).2.2.trans h)]

theorem laterChecks_of_empty_works {u : Update} {s : State} (h : s.wch.capture = none) :
    Works [.weighing] [4] s (laterChecks u s) := by
  rw [laterChecks_of_empty h]
  exact (((autoClearTare_works u s).1.trans (clearInterlock_works u _).1).mono (fun _ => id) (by simp)).trans
    (averageStep_works u _).1

/-! ## Initial zero (R11) -/

theorem initialZero_pending {u : Update} {s : State} {r : CalRecord} (hs : s.wch.state = .zeroPending) (hr : s.record? = some r) :
    initialZero u s =
      if s.wch.ind.stable then
        if (u.f - r.zc).natAbs ≤ (r.counts r.max 10).natAbs then
          { s with wch := { s.wch.run s.clock with
              zo := u.f - r.zc, zi := some (u.f - r.zc), last := some u.unreported } }
        else { s with wch := { s.wch with zeroOut := true } }
      else s := by
  unfold initialZero
  rw [hs, hr]

theorem initialZero_kept (u : Update) (s : State) :
    (initialZero u s).wch.refill = s.wch.refill ∧ (initialZero u s).wch.ind = s.wch.ind ∧
    (initialZero u s).wch.capture = s.wch.capture ∧ (initialZero u s).wch.interlock = s.wch.interlock := by
  unfold initialZero
  split
  · split
    · split <;> exact ⟨rfl, rfl, rfl, rfl⟩
    · exact ⟨rfl, rfl, rfl, rfl⟩
  · exact ⟨rfl, rfl, rfl, rfl⟩

/-- Outside ZERO_PENDING an update leaves all of the channel but what `SlotOnly` allows. -/
theorem updated_slotOnly {r : State} (h : r.wch.state ≠ .zeroPending) : SlotOnly (r.indicate (formUpdate r)) r.updated := by
  have hz := initialZero_of_not_pending (u := formUpdate r) (s := r.indicate (formUpdate r)) (by rw [indicate_wch]; exact h)
  have hlater := laterChecks_slotOnly (formUpdate r) (initialZero (formUpdate r) (r.indicate (formUpdate r)))
  rw [updated_eq]
  rwa [hz] at hlater ⊢

/-! ## Stability at the update (R10) -/

/-- The count of the judge reaches the stability count only with the window closed and the value inside the band. -/
theorem judge_reaches {w : Wch} {value : Int} {band n : Nat} (hn : 0 < n) :
    n ≤ (w.judge value band).stabCount ↔
      w.window = .closed ∧ (∃ ref, w.stabRef = some ref ∧ |value - ref| ≤ band) ∧ n ≤ min 200 (w.stabCount + 1) := by
  by_cases hw : w.window = .closed
  · cases hr : w.stabRef with
    | none =>
      rw [judge_starts (.inr (.inl hr))]
      simp
      omega
    | some ref =>
      by_cases hin : |value - ref| ≤ (band : Int)
      · rw [judge_stays hw hr hin]
        simp [hw, hin]
      · rw [judge_starts (.inr (.inr ⟨ref, hr, by omega⟩))]
        simp [hin]
        omega
  · rw [judge_starts (.inl hw)]
    simp [hw]
    omega

section
variable {v : Int} {s : State} {w : Wch}

theorem UpdatesTo.form_f (h : UpdatesTo v s w) : (formUpdate (s.refilled v w)).f = s.formed v := by
  show filteredValue s.lli.params.filterLength w.ring = _
  rw [h.kept]
  rfl

theorem refilled_record (v : Int) (s : State) (w : Wch) : (s.refilled v w).record? = s.record? := rfl

/-- The figures of the update under a record (R30 to R33). -/
theorem UpdatesTo.form_figures (h : UpdatesTo v s w) :
    (formUpdate (s.refilled v w)).figures = s.record?.map fun r => r.figures s.wch.zo s.wch.tare (s.formed v) := by
  show (s.record?.map fun r => r.figures w.zo w.tare (filteredValue s.lli.params.filterLength w.ring)) = _
  rw [h.kept]
  rfl

theorem UpdatesTo.form_low (h : UpdatesTo v s w) :
    (formUpdate (s.refilled v w)).oorLow = true ↔ (-8388608 : Int) ∈ s.newest v := by
  show (w.ring.take s.lli.params.filterLength).contains sampleLow = true ↔ _
  rw [h.kept, List.contains_iff_mem]
  rfl

theorem UpdatesTo.form_high (h : UpdatesTo v s w) :
    (formUpdate (s.refilled v w)).oorHigh = true ↔ (8388607 : Int) ∈ s.newest v := by
  show (w.ring.take s.lli.params.filterLength).contains sampleHigh = true ↔ _
  rw [h.kept, List.contains_iff_mem]
  rfl

/-- The stable bit of the update is `StableAt` (R10). -/
theorem UpdatesTo.stable_iff (h : UpdatesTo v s w) (hp : ParamsKept s) :
    ((s.refilled v w).indicate (formUpdate (s.refilled v w))).wch.ind.stable = true ↔ StableAt v s := by
  have hcount : 0 < s.lli.params.stabilityCount := by
    obtain ⟨_, hmin, _⟩ := hp
    omega
  have hwindow : w.window = s.wch.window := by rw [h.kept]; rfl
  have href : w.stabRef = s.wch.stabRef := by rw [h.kept]; rfl
  have hstab : w.stabCount = s.wch.stabCount := by rw [h.kept]; rfl
  show decide (s.lli.params.stabilityCount ≤ (w.judge _ _).stabCount) = true ↔ _
  rw [decide_eq_true_iff, judge_reaches hcount, hwindow, href, hstab]
  unfold StableAt Update.judged
  rw [h.form_figures, refilled_record]
  cases hr : s.record? with
  | none =>
    rw [← h.form_f]
    rfl
  | some r => rfl

end

/-! ## The end of a refill (R5, R46) -/

/-- The channel at the end of a refill that does not stop in FAULT (R5, R46). -/
def Wch.refillEnded (w : Wch) (cause : RestartCause) (clock : Nat) : Wch :=
  match cause with
  | .testOn => { w with refill := none, state := .test }
  | .calEnter => { w with refill := none, state := .cal }
  | .reset | .weighRestart | .testOff | .calLeave =>
    if w.zi.isSome then { w with refill := none }.run clock else { w with refill := none, state := .zeroPending }

theorem refillEnded_kept (w : Wch) (cause : RestartCause) (clock : Nat) :
    w.refillEnded cause clock = { w with
      state := (w.refillEnded cause clock).state, refill := (w.refillEnded cause clock).refill
      zeroOut := (w.refillEnded cause clock).zeroOut, trackDue := (w.refillEnded cause clock).trackDue } ∧
    (w.refillEnded cause clock).state ≠ .fault ∧ (w.refillEnded cause clock).refill = none := by
  unfold Wch.refillEnded
  split
  · exact ⟨rfl, fun h => (by cases h), rfl⟩
  · exact ⟨rfl, fun h => (by cases h), rfl⟩
  all_goals
    split
    · exact ⟨rfl, fun h => (by cases h), rfl⟩
    · exact ⟨rfl, fun h => (by cases h), rfl⟩

theorem record_of_intact {s : State} (hi : s.sst.state = .intact) (hv : s.sst.image.record.valid = true) :
    s.record? = some s.sst.image.record := by
  rw [State.record?, hi, hv]
  rfl

theorem refillEnd_ends {e : State} {cause : RestartCause} (h : e.wch.refill = some cause)
    (hok : cause = .calEnter ∨ (e.sst.state = .intact ∧ e.sst.image.record.valid = true)) :
    refillEnd e = { e with wch := e.wch.refillEnded cause e.clock } := by
  have hrecord : ¬(cause ≠ .calEnter ∧ e.record? = none) := by
    rintro ⟨hc, hn⟩
    obtain ⟨hi, hv⟩ := hok.resolve_left hc
    rw [record_of_intact hi hv] at hn
    cases hn
  have hstore : ¬(cause ≠ .calEnter ∧ e.sst.state ≠ .intact) := fun ⟨hc, hn⟩ => hn (hok.resolve_left hc).1
  unfold refillEnd
  rw [h]
  dsimp only
  rw [if_neg hstore, if_neg hrecord]
  cases cause with
  | testOn => rfl
  | calEnter => rfl
  | _ => by_cases hz : e.wch.zi.isSome <;> simp only [Wch.refillEnded, hz] <;> rfl

theorem updatesTo_of_refill (v : Int) {s : State} {cause : RestartCause} (hs : s.wch.state ≠ .fault)
    (hn : s.lli.params.filterLength ≤ min 64 (s.wch.count + 1)) (hr : s.wch.refill = some cause)
    (hok : cause = .calEnter ∨ (s.sst.state = .intact ∧ s.sst.image.record.valid = true)) :
    UpdatesTo v s ((s.entered v).wch.refillEnded cause (s.entered v).clock) where
  live   := hs
  full   := hn
  refill := refillEnd_ends hr hok
  state  := (refillEnded_kept _ _ _).2.1
  kept   := (refillEnded_kept _ _ _).1

/-- A refill that ends in FAULT (R5). -/
theorem refill_stops {v : Int} {s : State} {why : FaultCause} (hs : s.wch.state ≠ .fault)
    (hn : s.lli.params.filterLength ≤ min 64 (s.wch.count + 1))
    (hr : refillEnd (s.entered v) = enterFault why (s.entered v)) :
    Does (.sample v) s ([.clock, .weighing] ++ s.slotParts ++ s.holdParts) [2, 3, 4, 14] fun t =>
      t.wch.state = .fault ∧ t.wch.faultCause = some why ∧ t.wch.tare = .none ∧ t.wch.cal = none ∧
      t.wch.capture = none ∧ t.wch.zo = s.wch.zo ∧ t.wch.zi = s.wch.zi ∧ t.wch.interlock = s.wch.interlock := by
  obtain ⟨hwch, _⟩ := enterFault_wch why (s := s.entered v) hs
  rw [faultedWch_eq] at hwch
  have he : sampleRead v s = enterFault why (s.entered v) := by
    rw [sampleRead_full hs hn, filteredUpdate, hr]
    exact if_pos (by rw [hwch])
  refine does_of (f := sampleRead v) rfl ?_ (.inr (by simp)) ?_
  · rw [he]
    exact ((entered_works v s).mono (by simp) (by simp)).trans
      ((enterFault_works why (s.entered v)).mono (List.subset_cons_self ..) (fun _ => id))
  · rw [he, finish_wch]
    refine ⟨by rw [hwch], by rw [hwch], by rw [hwch], by rw [hwch], by rw [hwch], by rw [hwch]; rfl, by rw [hwch]; rfl, by rw [hwch]; rfl⟩

end Sys2Proof.Machine
end

section
/-! Proofs about the update's checks one by one: the refill's end, initial zero, the tare, the interlock and the averaged
step (R5, R11, R17, R23, R48, R49). -/

namespace Sys2Proof.Machine

open Sys2Proof

section
variable {v : Int} {s : State} {w : Wch}

/-- The bits that the update set stand after its checks. -/
theorem updated_ind (r : State) : r.updated.wch.ind = (r.indicate (formUpdate r)).wch.ind := by
  have hlater := laterChecks_slotOnly (formUpdate r) (initialZero (formUpdate r) (r.indicate (formUpdate r)))
  rw [updated_eq, hlater]
  exact (initialZero_kept _ _).2.1

theorem updated_refill (r : State) : r.updated.wch.refill = r.wch.refill := by
  have hlater := laterChecks_slotOnly (formUpdate r) (initialZero (formUpdate r) (r.indicate (formUpdate r)))
  rw [updated_eq, hlater]
  exact (initialZero_kept _ _).1.trans (by rw [indicate_wch])

/-! ## Initial zero (R11) -/

theorem indicate_kept (u : Update) (r : State) :
    (r.indicate u).wch.state = r.wch.state ∧ (r.indicate u).wch.zo = r.wch.zo ∧ (r.indicate u).wch.zi = r.wch.zi ∧
    (r.indicate u).wch.zeroOut = r.wch.zeroOut := by
  rw [indicate_wch]
  exact ⟨rfl, rfl, rfl, rfl⟩

/-- An update in ZERO_PENDING: the zero taken, the zero-out bit set, or nothing (R11). -/
theorem UpdatesTo.zeroes (h : UpdatesTo v s w) (hp : ParamsKept s) (hstate : w.state = .zeroPending) {r : CalRecord}
    (hr : s.record? = some r) (ho : w.zeroOut = s.wch.zeroOut) :
    (StableAt v s → (s.formed v - r.zc).natAbs ≤ (r.counts r.max 10).natAbs →
      (s.refilled v w).updated.wch.state = .running ∧ (s.refilled v w).updated.wch.zo = s.formed v - r.zc ∧
      (s.refilled v w).updated.wch.zi = some (s.formed v - r.zc) ∧ (s.refilled v w).updated.wch.zeroOut = false ∧
      (s.refilled v w).updated.wch.trackDue = some ((s.refilled v w).updated.clock + 1000000)) ∧
    (¬(StableAt v s ∧ (s.formed v - r.zc).natAbs ≤ (r.counts r.max 10).natAbs) →
      (s.refilled v w).updated.wch.state = .zeroPending ∧ (s.refilled v w).updated.wch.zo = s.wch.zo ∧
      (s.refilled v w).updated.wch.zi = s.wch.zi) ∧
    (StableAt v s → (r.counts r.max 10).natAbs < (s.formed v - r.zc).natAbs → (s.refilled v w).updated.wch.zeroOut = true) ∧
    (¬StableAt v s → (s.refilled v w).updated.wch.zeroOut = s.wch.zeroOut) := by
  have hstable := h.stable_iff hp
  have hf := h.form_f
  have hlater := laterChecks_slotOnly (formUpdate (s.refilled v w))
    (initialZero (formUpdate (s.refilled v w)) ((s.refilled v w).indicate (formUpdate (s.refilled v w))))
  rw [← updated_eq] at hlater
  have hzero := initialZero_pending (u := formUpdate (s.refilled v w))
    (s := (s.refilled v w).indicate (formUpdate (s.refilled v w))) (r := r) (by rw [indicate_wch]; exact hstate) hr
  rw [hf] at hzero
  obtain ⟨hstate', hzo, hzi, hout⟩ := indicate_kept (formUpdate (s.refilled v w)) (s.refilled v w)
  rw [show (s.refilled v w).wch.state = .zeroPending from hstate] at hstate'
  rw [show (s.refilled v w).wch.zo = s.wch.zo by show w.zo = _; rw [h.kept]; rfl] at hzo
  rw [show (s.refilled v w).wch.zi = s.wch.zi by show w.zi = _; rw [h.kept]; rfl] at hzi
  rw [show (s.refilled v w).wch.zeroOut = s.wch.zeroOut from ho] at hout
  rw [updated_clock, hlater]
  by_cases hst : StableAt v s
  · rw [if_pos (hstable.mpr hst)] at hzero
    by_cases hnear : (s.formed v - r.zc).natAbs ≤ (r.counts r.max 10).natAbs
    · rw [if_pos hnear] at hzero
      rw [hzero]
      exact ⟨fun _ _ => ⟨rfl, rfl, rfl, rfl, rfl⟩, fun hn => absurd ⟨hst, hnear⟩ hn, fun _ hfar => by omega,
        fun hn => absurd hst hn⟩
    · rw [if_neg hnear] at hzero
      rw [hzero]
      exact ⟨fun _ hn => absurd hn hnear, fun _ => ⟨hstate', hzo, hzi⟩, fun _ _ => rfl, fun hn => absurd hst hn⟩
  · rw [if_neg fun hs => hst (hstable.mp hs)] at hzero
    rw [hzero]
    exact ⟨fun hs => absurd hs hst, fun _ => ⟨hstate', hzo, hzi⟩, fun hs => absurd hs hst, fun _ => hout⟩

/-! ## The tare (R17) -/

/-- An update with no capture waiting raises CAL and WEIGHT alone. -/
theorem UpdatesTo.does_of_empty (h : UpdatesTo v s w) (hc : s.wch.capture = none) {P : State → Prop}
    (hP : P (finish s (s.refilled v w).updated)) : Does (.sample v) s [.clock, .weighing] [2, 4] P := by
  have hcapture : (initialZero (formUpdate (s.refilled v w))
      ((s.refilled v w).indicate (formUpdate (s.refilled v w)))).wch.capture = none := by
    rw [initialZero_capture, indicate_wch]
    exact h.capture.trans hc
  refine does_of (f := Machine.sampleRead v) rfl ?_ (.inr (by simp)) (by rw [h.sampleRead]; exact hP)
  rw [h.sampleRead, updated_eq]
  exact ((refilled_works v s w).mono (by simp) (by simp)).trans
    (((indicate_works _ _).mono (by simp) (by simp)).trans (((initialZero_works _ _).mono (by simp) (by simp)).trans
      ((laterChecks_of_empty_works hcapture).mono (by simp) (by simp))))

theorem autoClearTare_weighed {u : Update} {x : State} {tare : Nat} {g : Figures} {r : CalRecord}
    (ht : x.wch.tare = .weighed tare) (hg : u.figures = some g) (hr : x.record? = some r) :
    autoClearTare u x =
      if (x.wch.state = .running ∨ x.wch.state = .test) ∧ x.wch.capture = none ∧ x.wch.ind.stable = true ∧
          nearZero g.gross r.e1 = true then
        { x with wch := { x.wch with tare := .none } }
      else x := by
  unfold autoClearTare
  rw [ht, hg, hr]

/-- With no capture waiting, outside ZERO_PENDING, the checks are those of the tare, the interlock and the averaged step. -/
theorem updated_of_empty {x : State} (hs : x.wch.state ≠ .zeroPending) (hc : x.wch.capture = none) :
    x.updated = averageStep (formUpdate x) (clearInterlock (formUpdate x)
      (autoClearTare (formUpdate x) (x.indicate (formUpdate x)))) := by
  rw [updated_eq, initialZero_of_not_pending (by rw [indicate_wch]; exact hs),
    laterChecks_of_empty (by rw [indicate_wch]; exact hc)]

theorem updated_tare {x : State} (hs : x.wch.state ≠ .zeroPending) (hc : x.wch.capture = none) :
    x.updated.wch.tare = (autoClearTare (formUpdate x) (x.indicate (formUpdate x))).wch.tare := by
  rw [updated_of_empty hs hc, averageStep_wch, clearInterlock_eq]

/-! ## The interlock (R23) -/

theorem record_congr {x y : State} (h : y.sst = x.sst) : y.record? = x.record? := by
  rw [State.record?, State.record?, h]

theorem completeCapture_record (u : Update) (x : State) : (completeCapture u x).record? = x.record? := by
  obtain ⟨_, _, _, hparts, _⟩ := (completeCapture_works u x).1
  refine record_congr (hparts .store ?_)
  unfold State.captureParts
  split
  · have hsub := printParts_sub x
    simp only [List.mem_cons, List.mem_append, not_or]
    refine ⟨by decide, by decide, fun hmem => ?_⟩
    have := hsub _ hmem
    simp at this
  · simp

/-- A light platter: its certified mass below Min, or UNDERLOAD (R23). -/
def LightAt (v : Int) (s : State) : Prop :=
  (-8388608 : Int) ∈ s.newest v ∨ ∃ r, s.record? = some r ∧
    (r.gross s.wch.zo (s.formed v) < -((20 * r.e1 * 10 : Nat) : Int) ∨
      (r.figures s.wch.zo s.wch.tare (s.formed v)).certified < (20 * r.e1 * 10 : Nat))

/-- Whether the interlock clears at an update (R23). -/
def clearsInterlock (u : Update) (s : State) : Bool :=
  (match u.figures, s.record? with
   | some g, some r => decide (g.certified < (r.min * 10 : Nat))
   | _, _ => false) || s.wch.ind.underload

theorem clearInterlock_interlock (u : Update) (s : State) :
    (clearInterlock u s).wch.interlock = if clearsInterlock u s then false else s.wch.interlock := by
  have key (b : Bool) : (if b then { s with wch := { s.wch with interlock := false } } else s).wch.interlock =
      if b then false else s.wch.interlock := by cases b <;> rfl
  exact key _

/-- The check of R23 on a state that holds the update's bits and the record in use. -/
theorem UpdatesTo.clears_iff (h : UpdatesTo v s w) {x : State} (hr : x.record? = s.record?)
    (hi : x.wch.ind = ((s.refilled v w).indicate (formUpdate (s.refilled v w))).wch.ind) :
    clearsInterlock (formUpdate (s.refilled v w)) x = true ↔ LightAt v s := by
  have hunder : x.wch.ind.underload = ((formUpdate (s.refilled v w)).indication s.record? x.wch.ind.stable).underload := by
    rw [hi]
    rfl
  rw [LightAt, ← h.form_low]
  unfold clearsInterlock
  rw [hunder, hr]
  unfold Update.indication
  rw [h.form_figures]
  cases s.record? with
  | none => simp
  | some r =>
    simp only [Option.map_some, Bool.or_eq_true, decide_eq_true_eq, Option.some.injEq, exists_eq_left', CalRecord.underload]
    exact ⟨fun h => h.elim (fun hc => .inr (.inr hc)) fun h => h.elim .inl fun hu => .inr (.inl hu),
      fun h => h.elim (fun hl => .inr (.inl hl)) fun h => h.elim (fun hu => .inr (.inr hu)) .inl⟩

end

end Sys2Proof.Machine
end

section
/-! Proofs about the averaged calibration step in an update (R48, R49), and the update as a whole. -/

namespace Sys2Proof.Machine

open Sys2Proof

/-! ## The step's phase and sum (R48) -/

section
variable {y : CalRun} {v : Int} {u : Update} {w : Wch}

theorem add_waiting (h : y.averaging = false) : y.add v = y := by simp [CalRun.add, h]

theorem add_extreme (h : y.averaging = true) (hv : v = 8388607 ∨ v = -8388608) : y.add v = y.again := by
  rw [CalRun.add, h]
  exact if_pos hv

theorem add_plain (h : y.averaging = true) (hv : ¬(v = 8388607 ∨ v = -8388608)) (hn : y.count < 256) :
    y.add v = { y with sum := y.sum + v, count := y.count + 1 } := by
  rw [CalRun.add, h]
  exact (if_neg hv).trans (if_pos hn)

theorem add_kept (y : CalRun) (v : Int) : (y.add v).again = y.again ∧ (y.add v).step = y.step ∧
    (y.averaging = true → ¬(v = 8388607 ∨ v = -8388608) → (y.add v).averaging = true) := by
  by_cases h : y.averaging = true
  · by_cases hv : v = 8388607 ∨ v = -8388608
    · rw [add_extreme h hv]
      exact ⟨rfl, rfl, fun _ hn => absurd hv hn⟩
    · by_cases hn : y.count < 256
      · rw [add_plain h hv hn]
        exact ⟨rfl, rfl, fun _ _ => h⟩
      · have he : y.add v = y := by
          rw [CalRun.add, h]
          exact (if_neg hv).trans (if_neg hn)
        rw [he]
        exact ⟨rfl, rfl, fun _ _ => h⟩
  · rw [add_waiting (by simpa using h)]
    exact ⟨rfl, rfl, fun ha => absurd ha h⟩

theorem watch_starts (h : y.averaging = false) (hs : w.ind.stable = true) (hd : w.disturbed = false)
    (hh : u.oorHigh = false) (hl : u.oorLow = false) :
    y.watch u w = { y with averaging := true, sum := 0, count := 0 } := by
  simp [CalRun.watch, h, hs, hd, hh, hl]

theorem watch_waits (h : y.averaging = false) (hw : w.ind.stable = false ∨ u.oorHigh = true ∨ u.oorLow = true) :
    y.watch u w = y := by
  rcases hw with hw | hw | hw <;> simp [CalRun.watch, h, hw]

theorem watch_again (h : y.averaging = true) (hm : w.ind.motion = true) : y.watch u w = y.again := by
  simp [CalRun.watch, h, hm]

theorem watch_goes (h : y.averaging = true) (hm : w.ind.motion = false) (hd : w.disturbed = false) : y.watch u w = y := by
  simp [CalRun.watch, h, hm, hd]

end

/-! ## The step at an update -/

section
variable {u : Update} {x : State} {c : CalContext} {y : CalRun}

/-- The step goes on unless its 256 samples are there (R48). -/
theorem averageStep_goes (hc : x.wch.cal = some c) (hy : c.run = some y)
    (h : ¬(y.averaging = true ∧ (y.watch u x.wch).averaging = true ∧ 256 ≤ (y.watch u x.wch).count)) :
    averageStep u x = { x with wch := { x.wch with cal := some { c with run := some (y.watch u x.wch) } } } := by
  unfold averageStep
  rw [hc]
  dsimp only
  rw [hy]
  exact if_neg h

theorem averageStep_completes (hc : x.wch.cal = some c) (hy : c.run = some y)
    (h : y.averaging = true ∧ (y.watch u x.wch).averaging = true ∧ 256 ≤ (y.watch u x.wch).count) :
    averageStep u x = raise (.cal y.step.name (c.complete (y.watch u x.wch)).2)
      { x with wch := { x.wch with cal := some (c.complete (y.watch u x.wch)).1 } } := by
  unfold averageStep
  rw [hc]
  dsimp only
  rw [hy]
  exact if_pos h

theorem complete_zero {r : CalRun} (h : r.step = .zero) :
    c.complete r = ({ c with run := none, zero := some r.average }, .ok) := by
  rw [CalContext.complete, h]

theorem complete_span {r : CalRun} {m : Nat} {z : Int} (h : r.step = .span m) (hz : c.zero = some z) :
    c.complete r = if (m * 10 : Nat) ≤ r.average - z then ({ c with run := none, span := some (r.average - z, m) }, .ok)
      else ({ c with run := none, span := none }, .spanLow) := by
  rw [CalContext.complete, h, hz]
  rfl

end

/-- The first sample of a ring that is long enough is among the newest. -/
theorem newest_head (v : Int) {s : State} (hp : ParamsKept s) (hs : s.wch.state ≠ .test) : v ∈ s.newest v := by
  obtain ⟨hlen, _⟩ := hp
  have hpos : 0 < s.lli.params.filterLength := by
    simp only [List.mem_cons, List.not_mem_nil, or_false] at hlen
    omega
  obtain ⟨n, hn⟩ := Nat.exists_eq_succ_of_ne_zero (Nat.ne_of_gt hpos)
  rw [State.newest, substitute_of_not_test hs, hn]
  simp

/-- In CAL, with a step in progress and no capture waiting, the update's only effect beside the interlock is on the step. -/
theorem cal_updated (v : Int) {s : State} (hs : s.wch.state = .cal)
    (hn : s.wch.capture = none) {c : CalContext} {y : CalRun} (hc : s.wch.cal = some c) (hy : c.run = some y) :
    ∃ x : State, (s.refilled v (s.entered v).wch).updated = averageStep (formUpdate (s.refilled v (s.entered v).wch)) x ∧
      x.wch.cal = some { c with run := some (y.add v) } ∧ x.wch.disturbed = s.wch.disturbed ∧
      x.wch.ind = ((s.refilled v (s.entered v).wch).indicate (formUpdate (s.refilled v (s.entered v).wch))).wch.ind := by
  have hclear : autoClearTare (formUpdate (s.refilled v (s.entered v).wch))
      ((s.refilled v (s.entered v).wch).indicate (formUpdate (s.refilled v (s.entered v).wch))) =
      (s.refilled v (s.entered v).wch).indicate (formUpdate (s.refilled v (s.entered v).wch)) := by
    unfold autoClearTare
    split
    · refine if_neg fun hall => ?_
      have hstate := hall.1
      rw [indicate_wch] at hstate
      rcases hstate with hr | hr
      · exact absurd (hs.symm.trans hr) (by decide)
      · exact absurd (hs.symm.trans hr) (by decide)
    · rfl
  have hstate : (s.refilled v (s.entered v).wch).wch.state ≠ .zeroPending := fun hz => absurd (hs.symm.trans hz) (by decide)
  rw [updated_of_empty hstate (show s.wch.capture = none from hn), hclear, clearInterlock_eq]
  refine ⟨_, rfl, ?_, ?_, rfl⟩
  · show ((s.refilled v (s.entered v).wch).indicate _).wch.cal = _
    rw [indicate_wch]
    show (s.wch.cal.map fun c => c.add (s.substitute v)) = _
    rw [hc, substitute_of_not_test (by rw [hs]; decide), Option.map_some, CalContext.add, hy]
    rfl
  · show Wch.disturbed { (State.indicate _ _).wch with interlock := _ } = _
    unfold Wch.disturbed
    rw [indicate_wch]
    rfl

theorem autoClearTare_wch (u : Update) (x : State) :
    (autoClearTare u x).wch = { x.wch with tare := (autoClearTare u x).wch.tare } := by
  unfold autoClearTare
  split
  · split <;> rfl
  · rfl

/-- What the update leaves of the interlock (R23). -/
theorem UpdatesTo.interlock {v : Int} {s : State} {w : Wch} (h : UpdatesTo v s w) :
    (LightAt v s → (s.refilled v w).updated.wch.interlock = false) ∧
    (¬LightAt v s → s.wch.capture = none → (s.refilled v w).updated.wch.interlock = s.wch.interlock) := by
  let u := formUpdate (s.refilled v w)
  let x := autoClearTare u (initialZero u ((s.refilled v w).indicate u))
  obtain ⟨_, hind, hcap, hlock⟩ := initialZero_kept u ((s.refilled v w).indicate u)
  have hcleared := autoClearTare_wch u (initialZero u ((s.refilled v w).indicate u))
  have hrecord : (completeCapture u x).record? = s.record? := by
    have hauto := ((initialZero_works u ((s.refilled v w).indicate u)).trans (autoClearTare_works u _).1).2.2.2.1 .store (by simp)
    rw [completeCapture_record, record_congr (show x.sst = _ from hauto)]
    rfl
  have hind' : (completeCapture u x).wch.ind = ((s.refilled v w).indicate u).wch.ind := by
    rw [completeCapture_slotOnly]
    show x.wch.ind = _
    rw [hcleared]
    exact hind
  have hiff := h.clears_iff hrecord hind'
  have hupdated : (s.refilled v w).updated.wch.interlock = (clearInterlock u (completeCapture u x)).wch.interlock := by
    rw [updated_eq, laterChecks, averageStep_wch]
  rw [hupdated, clearInterlock_interlock]
  refine ⟨fun hl => if_pos (hiff.mpr hl), fun hl hc => (if_neg fun hb => hl (hiff.mp hb)).trans ?_⟩
  have hnone : x.wch.capture = none := by
    rw [hcleared]
    exact hcap.trans (by rw [indicate_wch]; exact h.capture.trans hc)
  rw [completeCapture_none hnone, hcleared]
  refine hlock.trans ?_
  rw [indicate_wch]
  show w.interlock = _
  rw [h.kept]
  rfl

/-- What the update leaves of an averaged step in progress (R48, R49). -/
theorem UpdatesTo.averages {v : Int} {s : State} (h : UpdatesTo v s (s.entered v).wch) (hp : ParamsKept s)
    (hs : s.wch.state = .cal) (hn : s.wch.capture = none) {c : CalContext} {y : CalRun} (hc : s.wch.cal = some c)
    (hy : c.run = some y) :
    let extreme := fun x : Int => x = 8388607 ∨ x = -8388608
    let average := roundHalfAway (y.sum + v) 256
    let t := finish s (s.refilled v (s.entered v).wch).updated
    let goesOn := fun y' : CalRun => t.wch.cal = some { c with run := some y' }
    (y.averaging = false → StableAt v s → (∀ x ∈ s.newest v, ¬extreme x) →
      goesOn { y with averaging := true, sum := 0, count := 0 }) ∧
    (y.averaging = false → (¬StableAt v s ∨ ∃ x ∈ s.newest v, extreme x) → goesOn y) ∧
    (y.averaging = true → (¬StableAt v s ∨ extreme v) → goesOn { y with averaging := false, sum := 0, count := 0 }) ∧
    (y.averaging = true → StableAt v s → ¬extreme v → y.count < 255 →
      goesOn { y with sum := y.sum + v, count := y.count + 1 }) ∧
    (y.averaging = true → StableAt v s → ¬extreme v → y.count = 255 →
      (y.step = .zero →
        t.wch.cal = some { c with run := none, zero := some average } ∧ Notified t (.cal .zero .ok)) ∧
      (∀ m z, y.step = .span m → c.zero = some z →
        ((10 * m : Nat) ≤ average - z →
          t.wch.cal = some { c with run := none, span := some (average - z, m) } ∧ Notified t (.cal .span .ok)) ∧
        (average - z < (10 * m : Nat) →
          t.wch.cal = some { c with run := none, span := none } ∧ Notified t (.cal .span .spanLow)))) := by
  intro extreme average t goesOn
  obtain ⟨x, hx, hcal, hdist, hind⟩ := cal_updated v hs hn hc hy
  have hstable : x.wch.ind.stable = true ↔ StableAt v s := by rw [hind]; exact h.stable_iff hp
  have hmotion : x.wch.ind.motion = !x.wch.ind.stable := by rw [hind]; rfl
  have hclosed (hst : StableAt v s) : x.wch.disturbed = false := by
    rw [hdist, disturbed_eq_false_iff]
    exact hst.1
  have hhead := newest_head v hp (show s.wch.state ≠ .test by rw [hs]; decide)
  have hhigh := h.form_high
  have hlow := h.form_low
  have ht : t.wch = (averageStep (formUpdate (s.refilled v (s.entered v).wch)) x).wch := by
    show (finish s _).wch = _
    rw [finish_wch, hx]
  obtain ⟨hagain, hstep, hstays⟩ := add_kept y v
  -- the step goes on as the watch leaves it
  have go {y₁ y' : CalRun} (hadd : y.add v = y₁) (hw : y₁.watch (formUpdate (s.refilled v (s.entered v).wch)) x.wch = y')
      (hno : ¬(y₁.averaging = true ∧ y'.averaging = true ∧ 256 ≤ y'.count)) : goesOn y' := by
    subst hadd
    show t.wch.cal = _
    rw [ht, averageStep_goes hcal rfl (by rw [hw]; exact hno), hw]
  refine ⟨fun ha hst hplain => ?_, fun ha hbad => ?_, fun ha hbad => ?_, fun ha hst hplain hcount => ?_,
    fun ha hst hplain hcount => ?_⟩
  · refine go (add_waiting ha) (watch_starts ha (hstable.mpr hst) (hclosed hst) ?_ ?_) (by simp [ha])
    · exact Bool.eq_false_iff.mpr fun hb => hplain _ (hhigh.mp hb) (.inl rfl)
    · exact Bool.eq_false_iff.mpr fun hb => hplain _ (hlow.mp hb) (.inr rfl)
  · refine go (add_waiting ha) (watch_waits ha ?_) (by simp [ha])
    rcases hbad with hst | ⟨z, hz, rfl | rfl⟩
    · exact .inl (Bool.eq_false_iff.mpr fun hb => hst (hstable.mp hb))
    · exact .inr (.inl (hhigh.mpr hz))
    · exact .inr (.inr (hlow.mpr hz))
  · by_cases he : extreme v
    · refine go (add_extreme ha he) (watch_waits rfl ?_) (by simp)
      rcases he with he | he
      · exact .inr (.inl (hhigh.mpr (he ▸ hhead)))
      · exact .inr (.inr (hlow.mpr (he ▸ hhead)))
    · have hst : ¬StableAt v s := hbad.resolve_right he
      refine go rfl ((watch_again (hstays ha he) ?_).trans hagain) (by simp)
      rw [hmotion, Bool.eq_false_iff.mpr fun hb => hst (hstable.mp hb)]
      rfl
  · have hadd := add_plain ha hplain (by omega)
    exact go hadd (watch_goes ha (by rw [hmotion, hstable.mpr hst]; rfl) (hclosed hst)) (by simp; omega)
  · have hadd := add_plain ha hplain (by omega)
    have hw : ({ y with sum := y.sum + v, count := y.count + 1 } : CalRun).watch
        (formUpdate (s.refilled v (s.entered v).wch)) x.wch = { y with sum := y.sum + v, count := y.count + 1 } :=
      watch_goes ha (by rw [hmotion, hstable.mpr hst]; rfl) (hclosed hst)
    have hdone := averageStep_completes (u := formUpdate (s.refilled v (s.entered v).wch)) hcal (y := y.add v) rfl (by
      rw [hadd, hw]
      exact ⟨ha, ha, by simp [hcount]⟩)
    rw [hadd, hw] at hdone
    rw [hdone] at ht
    have hnotified : Notified t (.cal y.step.name (CalContext.complete { c with run := some (y.add v) }
        { y with sum := y.sum + v, count := y.count + 1 }).2) := by
      show Notified (finish s _) _
      rw [hx, hdone, hadd]
      exact (standing_raise _ _).finish s (by simp [Notice.kind])
    have hcal' : t.wch.cal = some (CalContext.complete { c with run := some (y.add v) }
        { y with sum := y.sum + v, count := y.count + 1 }).1 := by
      rw [ht, hadd]
      rfl
    refine ⟨fun hz => ?_, fun m z hm hz => ?_⟩
    · rw [complete_zero (r := { y with sum := y.sum + v, count := y.count + 1 }) hz] at hcal' hnotified
      rw [hz] at hnotified
      exact ⟨hcal', hnotified⟩
    · rw [show y.step.name = .span by rw [hm]; rfl] at hnotified
      rw [complete_span (c := { c with run := some (y.add v) }) (r := { y with sum := y.sum + v, count := y.count + 1 })
        (m := m) (z := z) hm hz] at hcal' hnotified
      have haverage : CalRun.average { y with sum := y.sum + v, count := y.count + 1 } = average := rfl
      rw [haverage] at hcal' hnotified
      refine ⟨fun hle => ?_, fun hlt => ?_⟩
      · rw [if_pos (by omega)] at hcal' hnotified
        exact ⟨hcal', hnotified⟩
      · rw [if_neg (by omega)] at hcal' hnotified
        exact ⟨hcal', hnotified⟩

/-- Settles O13: the refill's end, stability, initial zero, the tare, the interlock and the averaged step in turn. -/
theorem updatesEndRefillsZeroAndCalibrate : Obligations.UpdatesEndRefillsZeroAndCalibrate := by
  unfold Obligations.UpdatesEndRefillsZeroAndCalibrate
  intro v s hp hs hn
  refine ⟨fun cause hr => ⟨fun hc hi => ?_, fun hc hi hv => ?_, fun hok => ?_⟩, fun hr => ?_, fun r hrec hwhen => ?_,
    fun r tare hrec hr hstate htare hc => ?_, fun hr => ?_, fun c y hstate hr hn' hc hy => ?_⟩
  · refine refill_stops hs hn ?_
    rw [refillEnd, show (s.entered v).wch.refill = some cause from hr]
    exact if_pos ⟨hc, hi⟩
  · refine refill_stops hs hn ?_
    rw [refillEnd, show (s.entered v).wch.refill = some cause from hr]
    have hnone : (s.entered v).record? = none := by
      rw [State.record?, show (s.entered v).sst.image.record.valid = false from hv, Bool.and_false]
      rfl
    exact (if_neg fun h => h.2 hi).trans (if_pos ⟨hc, hnone⟩)
  · have hup := updatesTo_of_refill v hs hn hr hok
    refine hup.does ?_
    rw [finish_wch, finish_clock, updated_clock]
    have hnone := (refillEnded_kept (s.entered v).wch cause (s.entered v).clock).2.2
    refine ⟨(updated_refill _).trans hnone, fun hc => ?_, fun hc => ?_, fun htest hcal hzi => ?_⟩
    · subst hc
      rw [updated_slotOnly (fun h => by cases h), indicate_wch]
      rfl
    · subst hc
      rw [updated_slotOnly (fun h => by cases h), indicate_wch]
      rfl
    · have hrun : (s.entered v).wch.refillEnded cause (s.entered v).clock =
          { (s.entered v).wch with refill := none }.run (s.entered v).clock := by
        have hsome : (s.entered v).wch.zi.isSome = true := Option.isSome_iff_ne_none.mpr hzi
        cases cause with
        | testOn => exact absurd rfl htest
        | calEnter => exact absurd rfl hcal
        | _ => exact if_pos hsome
      rw [hrun]
      rw [updated_slotOnly (fun h => by cases h), indicate_wch]
      exact ⟨rfl, rfl, rfl, rfl, rfl⟩
  · have hup := updatesTo_of_no_refill v hs hn hr
    refine hup.does ?_
    rw [finish_wch, updated_ind]
    exact ⟨hup.stable_iff hp, rfl⟩
  · rcases hwhen with ⟨hr, hstate⟩ | ⟨cause, hr, htest, hcal, hi, hzi⟩
    · have hup := updatesTo_of_no_refill v hs hn hr
      refine hup.does ?_
      rw [finish_wch, finish_clock]
      exact hup.zeroes hp hstate hrec rfl
    · have hup := updatesTo_of_refill v hs hn hr (.inr ⟨hi, (record_valid hrec).1 ▸ (record_valid hrec).2.2⟩)
      have hpend : (s.entered v).wch.refillEnded cause (s.entered v).clock =
          { (s.entered v).wch with refill := none, state := .zeroPending } := by
        have hnone : ¬(s.entered v).wch.zi.isSome = true := by
          rw [show (s.entered v).wch.zi = none from hzi]
          decide
        cases cause with
        | testOn => exact absurd rfl htest
        | calEnter => exact absurd rfl hcal
        | _ => exact if_neg hnone
      refine hup.does ?_
      rw [finish_wch, finish_clock]
      exact hup.zeroes hp (by rw [hpend]) hrec (by rw [hpend]; rfl)
  · have hup := updatesTo_of_no_refill v hs hn hr
    refine hup.does_of_empty hc ?_
    rw [finish_wch, updated_tare (x := s.refilled v (s.entered v).wch) hstate hc,
      autoClearTare_weighed (x := (s.refilled v (s.entered v).wch).indicate _) (tare := tare) (g := r.figures s.wch.zo s.wch.tare (s.formed v)) (r := r)
        (by rw [indicate_wch]; exact htare) (by rw [hup.form_figures, hrec]; rfl) hrec]
    have hstable := hup.stable_iff hp
    obtain ⟨hsame, _⟩ := indicate_kept (formUpdate (s.refilled v (s.entered v).wch)) (s.refilled v (s.entered v).wch)
    split
    · rename_i hall
      obtain ⟨hw, _, hb, hz⟩ := hall
      exact ⟨fun _ => rfl, fun hno => absurd ⟨hsame ▸ hw, hstable.mp hb, of_decide_eq_true hz⟩ hno⟩
    · rename_i hno
      exact ⟨fun ⟨hw, hb, hz⟩ => absurd ⟨hsame ▸ hw, by rw [indicate_wch]; exact hc, hstable.mpr hb, decide_eq_true hz⟩ hno,
        fun _ => by rw [indicate_wch]; exact htare⟩
  · have hup := updatesTo_of_no_refill v hs hn hr
    refine hup.does ?_
    rw [finish_wch]
    exact hup.interlock
  · have hup := updatesTo_of_no_refill v hs hn hr
    refine hup.does_of_empty hn' ?_
    exact hup.averages hp hstate hn' hc hy

end Sys2Proof.Machine
end

section
/-! Proofs about captures that complete (R21, R35, R37, R65, R70, R73). -/

namespace Sys2Proof.Machine

open Sys2Proof

/-! ## A notice that stands while the printer goes on -/

section
variable {s : State} {n : Notice}

theorem Standing.trySwap (t : TableName) (h : Standing s n) (hk : n.kind ≠ 13) : Standing (trySwap t s) n := by
  unfold Machine.trySwap
  split
  · exact Standing.raised _ (h.of_notices rfl) (by simpa [Notice.kind] using Ne.symm hk)
  · exact h

theorem Standing.swapPrintTables (h : Standing s n) (hk : n.kind ≠ 13) : Standing (swapPrintTables s) n :=
  (h.trySwap .font hk).trySwap .headerTrailer hk

theorem Standing.swapSlotTables (h : Standing s n) (hk : n.kind ≠ 13) : Standing (swapSlotTables s) n :=
  (h.trySwap .item hk).trySwap .code hk

theorem Standing.enterHalt (r : HaltReason) (h : Standing s n) (hp : n.kind ≠ 12) (hk : n.kind ≠ 13) :
    Standing (enterHalt r s) n := by
  refine Standing.swapPrintTables (Standing.raised _ ?_ (by simpa [Notice.kind] using Ne.symm hp)) hk
  exact h.of_notices rfl

theorem Standing.haltTest {t : State} (ht : haltTest s = some t) (h : Standing s n) (hp : n.kind ≠ 12) (hk : n.kind ≠ 13) :
    Standing t n := by
  unfold Machine.haltTest at ht
  split at ht
  · cases ht
    refine Standing.enterHalt _ ?_ hp hk
    exact h.of_notices rfl
  · split at ht
    · cases ht
      exact h.enterHalt _ hp hk
    · cases ht

theorem Standing.composerFill (h : Standing s n) : Standing (composerFill s) n := by
  refine h.of_notices ?_
  unfold Machine.composerFill
  split <;> rfl

theorem startRow_lli (p : PrintLine) (s : State) : (startRow p s).lli = s.lli := by
  unfold startRow placePhase
  split
  · rfl
  · rw [examine_lli]
    rfl

theorem Standing.goOnFrom (fuel : Nat) (h : Standing s n) (hp : n.kind ≠ 12) (hk : n.kind ≠ 13) :
    Standing (goOnFrom fuel s) n := by
  induction fuel generalizing s with
  | zero => exact h
  | succ fuel ih =>
    unfold Machine.goOnFrom
    split
    · exact h.haltTest ‹_› hp hk
    · split
      · exact h.of_notices rfl
      · split
        · exact h.of_notices rfl
        · split
          · refine ih (Standing.composerFill ?_)
            exact h.of_notices rfl
          · refine ih (Standing.composerFill ?_)
            exact h.of_notices rfl
          · split
            · exact h.of_notices rfl
            · exact h.of_notices (by rw [startRow_lli])
          · refine Standing.swapPrintTables ?_ hk
            exact h.of_notices rfl

theorem Standing.goOn (h : Standing s n) (hp : n.kind ≠ 12) (hk : n.kind ≠ 13) : Standing (goOn s) n := h.goOnFrom _ hp hk

theorem Standing.wakePrinter (h : Standing s n) (hp : n.kind ≠ 12) (hk : n.kind ≠ 13) : Standing (wakePrinter s) n := by
  unfold Machine.wakePrinter
  split
  · exact h.goOn hp hk
  · exact h

theorem Standing.composerAct (h : Standing s n) (hp : n.kind ≠ 12) (hk : n.kind ≠ 13) : Standing (composerAct s) n :=
  h.composerFill.wakePrinter hp hk

end

/-! ## The line of a capture -/

theorem weighedLine_eq (c : Capture) (g : Figures) :
    weighedLine c g =
      { number := 0, kind := .weighed
        state := if (weighedPricing c.item g.certified).1.isSome then .referred else .posted
        plu := some c.plu
        text := match c.item with
                | some e => e.text
                | none => []
        quantity := none, mass := some ⟨g.gross, g.tare, g.certified, g.interval, c.generation⟩
        unitPrice := c.item.map ItemEntry.unitPrice, basis := c.item.map ItemEntry.basis
        amount := (weighedPricing c.item g.certified).2
        voided := none, card := none, print := .notQueued } := by
  unfold weighedLine
  cases c.item <;> rfl

/-- A referred capture has amount 0 (R70). -/
theorem weighedPricing_amount {item : Option ItemEntry} {certified : Int} {x : ReferralReason}
    (h : (weighedPricing item certified).1 = some x) : (weighedPricing item certified).2 = 0 := by
  unfold weighedPricing at h ⊢
  split
  · rfl
  · rename_i e
    dsimp only at h ⊢
    by_cases hr : e.refer = true
    · rw [if_pos hr]
    · rw [if_neg hr] at h ⊢
      by_cases hl : maxLineAmount < price certified e.unitPrice e.basis
      · rw [if_pos hl]
      · rw [if_neg hl] at h
        cases h

theorem admits_referred_iff {o : Sale} {l : Line} (h : l.state = .referred) :
    o.admits l = true ↔ o.lines.length < 200 ∧ o.referrals.length < 4 := by
  simp [Sale.admits, h, Sale.hasRoom]

/-- SRU's answer to a capture of the open sale (R70). -/
theorem postWeighed_open {c : Capture} {g : Figures} {s : State} {o : Sale} (ho : s.openSale? = some o) :
    postWeighed c g s =
      if o.admits (weighedLine c g) then
        (addLine o (weighedLine c g) (weighedPricing c.item g.certified).1 s,
          some (o.lines.length + 1, (weighedLine c g).state))
      else (s, none) := by
  rw [postWeighed, ho]

theorem postWeighed_acp (c : Capture) (g : Figures) (s : State) : (postWeighed c g s).1.acp = s.acp := by
  obtain ⟨_, _, _, hparts, _⟩ := postWeighed_works c g s
  refine hparts .accessory ?_
  have hsub := printParts_sub s
  simp only [List.mem_cons, not_or]
  refine ⟨by decide, fun hmem => ?_⟩
  have := hsub _ hmem
  simp at this

/-! ## The completion -/

theorem completeCapture_ready {u : Update} {s : State} {c : Capture} {g : Figures} {r : CalRecord}
    (hc : s.wch.capture = some c) (hg : u.figures = some g) (hr : s.record? = some r) (hready : captureReady g r s.wch = true)
    (hheld : s.acp.held = none) :
    completeCapture u s = closeCapture c (postWeighed c g s).2 (postWeighed c g s).1 := by
  have hempty : (closeCapture c (postWeighed c g s).2 (postWeighed c g s).1).acp.held = none := by
    show (postWeighed c g s).1.acp.held = none
    rw [postWeighed_acp]
    exact hheld
  unfold completeCapture
  rw [hc, hg, hr]
  dsimp only
  rw [if_pos hready, captureEmptied_of_empty hempty]

theorem captureReady_iff (g : Figures) (r : CalRecord) (w : Wch) :
    captureReady g r w = true ↔
      w.state = .running ∧ w.ind.stable = true ∧ w.window = .closed ∧ w.ind.overload = false ∧ w.ind.underload = false ∧
      (((20 * r.e1 * 10 : Nat) : Int) ≤ g.certified ∧ g.certified ≤ (r.max * 10 : Nat)) ∧ w.interlock = false := by
  have hband : r.inBand g.certified = true ↔
      ((20 * r.e1 * 10 : Nat) : Int) ≤ g.certified ∧ g.certified ≤ (r.max * 10 : Nat) := by
    rw [CalRecord.inBand, Bool.and_eq_true, decide_eq_true_iff, decide_eq_true_iff]
    rfl
  simp only [captureReady, hband, Bool.and_eq_true, beq_iff_eq, Bool.not_eq_true', disturbed_eq_false_iff, and_assoc]

theorem clearInterlock_of_heavy {u : Update} {s : State} (h : clearsInterlock u s = false) : clearInterlock u s = s := by
  have key (b : Bool) (hb : b = false) :
      (if b then { s with wch := { s.wch with interlock := false } } else s) = s := by rw [hb]; rfl
  exact key _ h

/-- The state in which the checks of the update find the channel: the sample entered, the figures formed, the bits set. -/
def State.judged (v : Int) (s : State) : State :=
  (s.refilled v (s.entered v).wch).indicate (formUpdate (s.refilled v (s.entered v).wch))

theorem judged_works (v : Int) (s : State) : Works [.clock, .weighing] [] s (s.judged v) :=
  (refilled_works v s _).trans ((indicate_works _ _).mono (by simp) (by simp))

theorem judged_kept (v : Int) (s : State) :
    (s.judged v).wch.state = s.wch.state ∧ (s.judged v).wch.tare = s.wch.tare ∧ (s.judged v).wch.window = s.wch.window ∧
    (s.judged v).wch.capture = s.wch.capture ∧ (s.judged v).wch.interlock = s.wch.interlock := by
  rw [State.judged, indicate_wch]
  exact ⟨rfl, rfl, rfl, rfl, rfl⟩

section
variable {v : Int} {r : CalRecord} {c : Capture} {o : Sale} {g : Figures} {s : State}

/-- The update that completes a capture: its figures, and the channel ready for them. -/
theorem CapturesAt.ready (h : CapturesAt v r c o g s) :
    (formUpdate (s.refilled v (s.entered v).wch)).figures = some g ∧ captureReady g r (s.judged v).wch = true ∧
    ¬LightAt v s := by
  obtain ⟨hstate, hrefill, hrec, hcap, ho, hheld, hwin, hlock, hfull, ⟨hhigh, hlow, hg⟩, ⟨ref, href, hband⟩, hcount, hover,
    hunder, hmin, hmax⟩ := h
  have hup := updatesTo_of_no_refill v (by rw [hstate]; decide) hfull hrefill
  have hsub : s.substitute v = v := substitute_of_not_test (by rw [hstate]; decide)
  have hnewest : s.newest v = ((v :: s.wch.ring).take 64).take s.lli.params.filterLength := by rw [State.newest, hsub]
  have hformed : g = r.figures s.wch.zo s.wch.tare (s.formed v) := by rw [State.formed, hnewest]; exact hg
  have hfig : (formUpdate (s.refilled v (s.entered v).wch)).figures = some g := by
    rw [hup.form_figures, hrec, hformed]
    rfl
  have hnohigh : (formUpdate (s.refilled v (s.entered v).wch)).oorHigh = false := by
    rw [Bool.eq_false_iff]
    exact fun hn => hhigh (hnewest ▸ hup.form_high.mp hn)
  have hnolow : (formUpdate (s.refilled v (s.entered v).wch)).oorLow = false := by
    rw [Bool.eq_false_iff]
    exact fun hn => hlow (hnewest ▸ hup.form_low.mp hn)
  have hjudge : (s.entered v).wch.judge g.gross (10 * r.e1) =
      { (s.entered v).wch with stabCount := min 200 (s.wch.stabCount + 1) } := judge_stays hwin href hband
  have hstable : (s.judged v).wch.ind.stable = true := by
    show decide (s.lli.params.stabilityCount ≤ ((s.entered v).wch.judge _ _).stabCount) = true
    unfold Update.judged
    rw [hfig, refilled_record, hrec]
    show decide (_ ≤ ((s.entered v).wch.judge g.gross (10 * r.e1)).stabCount) = true
    rw [hjudge]
    exact decide_eq_true hcount
  have hoverload : (s.judged v).wch.ind.overload = false := by
    show ((formUpdate (s.refilled v (s.entered v).wch)).indication s.record? _).overload = false
    unfold Update.indication
    rw [hfig, hrec]
    show (_ || r.overload g.gross) = false
    rw [hnohigh, CalRecord.overload, Bool.false_or, decide_eq_false_iff_not]
    omega
  have hunderload : (s.judged v).wch.ind.underload = false := by
    show ((formUpdate (s.refilled v (s.entered v).wch)).indication s.record? _).underload = false
    unfold Update.indication
    rw [hfig, hrec]
    show (_ || r.underload g.gross) = false
    rw [hnolow, CalRecord.underload, Bool.false_or, decide_eq_false_iff_not]
    omega
  obtain ⟨hks, _, hkw, _, hki⟩ := judged_kept v s
  refine ⟨hfig, (captureReady_iff _ _ _).mpr
    ⟨hks.trans hstate, hstable, hkw.trans hwin, hoverload, hunderload, ⟨hmin, hmax⟩, hki.trans hlock⟩, ?_⟩
  rintro (hl | ⟨r', hr', hl⟩)
  · exact hlow (hnewest ▸ hl)
  · rw [hrec] at hr'
    cases hr'
    rw [← hformed] at hl
    have hgross : r.gross s.wch.zo (s.formed v) = g.gross := by rw [hformed]; rfl
    rw [hgross] at hl
    omega

/-- The sample is all of one completion, then of the step in progress. -/
theorem CapturesAt.completes (h : CapturesAt v r c o g s) :
    sampleRead v s = averageStep (formUpdate (s.refilled v (s.entered v).wch))
      (closeCapture c (postWeighed c g (s.judged v)).2 (postWeighed c g (s.judged v)).1) := by
  obtain ⟨hfig, hready, hheavy⟩ := h.ready
  obtain ⟨hstate, hrefill, hrec, hcap, ho, hheld, _, _, hfull, _⟩ := h
  obtain ⟨hks, _, _, hkc, _⟩ := judged_kept v s
  have hup := updatesTo_of_no_refill v (by rw [hstate]; decide) hfull hrefill
  have hcap' : (s.judged v).wch.capture = some c := hkc.trans hcap
  have hauto : autoClearTare (formUpdate (s.refilled v (s.entered v).wch)) (s.judged v) = s.judged v := by
    unfold autoClearTare
    split
    · rw [if_neg]
      rintro ⟨_, hn, _⟩
      rw [hcap'] at hn
      cases hn
    · rfl
  have hcomplete := completeCapture_ready hcap' hfig (show (s.judged v).record? = some r from hrec) hready hheld
  have hclear : clearInterlock (formUpdate (s.refilled v (s.entered v).wch))
      (completeCapture (formUpdate (s.refilled v (s.entered v).wch)) (s.judged v)) =
      completeCapture (formUpdate (s.refilled v (s.entered v).wch)) (s.judged v) := by
    refine clearInterlock_of_heavy (Bool.eq_false_iff.mpr fun hl => hheavy ((hup.clears_iff ?_ ?_).mp hl))
    · exact (completeCapture_record _ _).trans rfl
    · rw [completeCapture_slotOnly]
      rfl
  have hpending : (s.judged v).wch.state ≠ .zeroPending := by
    rw [hks, hstate]
    decide
  rw [hup.sampleRead, updated_eq]
  show laterChecks _ (initialZero _ (s.judged v)) = _
  rw [initialZero_of_not_pending hpending, laterChecks]
  show averageStep _ (clearInterlock _ (completeCapture _ (autoClearTare _ (s.judged v)))) = _
  rw [hauto, hclear, hcomplete]

theorem averageStep_standing {u : Update} {x : State} {n : Notice} (h : Standing x n) (hk : n.kind ≠ 4) :
    Standing (averageStep u x) n := by
  unfold averageStep
  split
  · exact h
  · split
    · exact h
    · dsimp only
      split
      · exact Standing.raised _ (h.of_notices rfl) (by simpa [Notice.kind] using Ne.symm hk)
      · exact h.of_notices rfl

/-- What a completion leaves, whatever SRU answered. -/
theorem captureDone_of {u : Update} {p : State} {a : Option (Nat × LineState)} (hp : WindowOnly (s.judged v) p)
    (hs : s.wch.state = .running) {res : CaptureResult} {line : Option Nat}
    (ha : captureNews c a = .capture c.source res line) :
    CaptureDone c res line s (finish s (averageStep u (closeCapture c a p))) := by
  obtain ⟨hks, hkt, _⟩ := judged_kept v s
  obtain ⟨htare, hstate⟩ : p.wch.tare = s.wch.tare ∧ p.wch.state = s.wch.state := by
    rw [hp.1]
    exact ⟨hkt, hks⟩
  have hclose : (averageStep u (closeCapture c a p)).wch =
      { p.wch with tare := s.wch.tare.afterCapture, interlock := true, capture := none, lateCancel := true,
                   cal := (averageStep u (closeCapture c a p)).wch.cal } := by
    rw [averageStep_wch, ← htare]
    rfl
  have hstands : Standing (closeCapture c a p) (.capture c.source res line) := by
    rw [← ha]
    exact standing_raise _ _
  refine ⟨?_, ?_, ?_, ?_, ?_, (averageStep_standing hstands (by simp [Notice.kind])).finish s (by simp [Notice.kind])⟩ <;>
    rw [finish_wch, hclose]
  · exact hstate.trans hs
  · dsimp only
    unfold Tare.afterCapture
    cases s.wch.tare <;> rfl

theorem captureNews_kind (c : Capture) (a : Option (Nat × LineState)) : (captureNews c a).kind = 3 := by
  unfold captureNews
  split <;> rfl

/-- The sample of a completion, from SRU's answer `a` and the state `p` that it leaves. -/
theorem CapturesAt.does (h : CapturesAt v r c o g s) {p : State} {a : Option (Nat × LineState)} {res : CaptureResult}
    {line : Option Nat} {ps : List Part} {ks : List Nat} {P : State → Prop}
    (hpost : postWeighed c g (s.judged v) = (p, a)) (ha : captureNews c a = .capture c.source res line)
    (hwork : Works ps ks (s.judged v) p)
    (hP : ∀ t, CaptureDone c res line s t → t.clock = p.clock → t.sru = p.sru →
      (∀ n, n.kind ≠ 2 → n.kind ≠ 3 → n.kind ≠ 4 → Standing p n → Notified t n) → P t) :
    Does (.sample v) s ([.clock, .weighing] ++ ps) ([2, 3, 4] ++ ks) P := by
  have hp : WindowOnly (s.judged v) p := by
    have hwindow := postWeighed_window c g (s.judged v)
    rwa [hpost] at hwindow
  have hrun := h.completes
  rw [hpost] at hrun
  have htail (u : Update) : Works [.weighing] [3, 4] p (averageStep u (closeCapture c a p)) :=
    ((closeCapture_works c a p).mono (by simp) (by simp)).trans ((averageStep_works u _).1.mono (by simp) (by simp))
  obtain ⟨_, _, _, hparts, _⟩ := htail (formUpdate (s.refilled v (s.entered v).wch))
  refine does_of (f := sampleRead v) rfl ?_ (.inr (by simp)) ?_ <;> rw [hrun]
  · exact ((judged_works v s).mono (by simp) (by simp)).trans
      ((hwork.mono (fun p hp => by simp [hp]) (fun k hk => by simp [hk])).trans ((htail _).mono (by simp) (by simp)))
  · refine hP _ (captureDone_of hp h.1 ha) ?_ ?_ fun n h2 h3 h4 hn => ?_
    · rw [finish_clock]
      exact hparts .clock (by simp)
    · rw [finish_sru]
      exact hparts .sale (by simp)
    · have hclosed : Standing (closeCapture c a p) n :=
        Standing.raised _ (hn.of_notices rfl) (by rw [captureNews_kind]; exact Ne.symm h3)
      exact (averageStep_standing hclosed h4).finish s h2

theorem addLine_clock (o : Sale) (l : Line) (r : Option ReferralReason) (s : State) : (addLine o l r s).clock = s.clock := by
  obtain ⟨_, _, _, hparts, _⟩ := addLine_works o l r s
  refine hparts .clock ?_
  have hsub := printParts_sub s
  simp only [List.mem_cons, not_or]
  refine ⟨by decide, fun hmem => ?_⟩
  have := hsub _ hmem
  simp at this

/-- REFERRAL carries the open list once a line has been referred (R73). -/
theorem addLine_referral (o : Sale) (l : Line) (r : ReferralReason) (s : State) :
    Standing (addLine o l (some r) s) (.referral (o.outstanding ++ [o.lines.length + 1])) := by
  have hout : (addReferral r s (o.append l)).outstanding = o.outstanding ++ [o.lines.length + 1] := by
    simp [addReferral, Sale.outstanding, Sale.append, Sale.lastNumber]
  refine Standing.composerAct ?_ (by simp [Notice.kind]) (by simp [Notice.kind])
  rw [← hout]
  exact standing_raise _ _

end

/-- The reason of referral of a capture (R37). -/
theorem weighedPricing_reason (item : Option ItemEntry) (certified : Int) :
    (weighedPricing item certified).1 =
      match item with
      | none => some .missing
      | some e =>
        if e.refer then some .refer
        else if 99999999 < price certified e.unitPrice e.basis then some .priceLimit else none := by
  cases item with
  | none => rfl
  | some e =>
    by_cases hr : e.refer = true
    · simp [weighedPricing, hr]
    · by_cases hl : 99999999 < price certified e.unitPrice e.basis <;> simp [weighedPricing, hr, maxLineAmount, hl]

/-- With no reason of referral the price stands (R37). -/
theorem weighedPricing_price {e : ItemEntry} {certified : Int} (h : (weighedPricing (some e) certified).1 = none) :
    (weighedPricing (some e) certified).2 = price certified e.unitPrice e.basis := by
  unfold weighedPricing at h ⊢
  dsimp only at h ⊢
  split at h
  · cases h
  · rename_i hr
    rw [if_neg hr]
    split at h
    · cases h
    · rename_i hl
      rw [if_neg hl]

/-- Settles O21: the completion itself, then the sample with each answer of SRU. -/
theorem captureCompletesIntoOneWeighedLine : Obligations.CaptureCompletesIntoOneWeighedLine := by
  unfold Obligations.CaptureCompletesIntoOneWeighedLine
  refine ⟨fun up s c g r o e hc hg hr ho he hs hst hw hov hun hin hmin hmax href hpr hlen htot hmaxtot hheld => ?_,
    fun v s c g r o h => ?_⟩
  · have hready : captureReady g r s.wch = true := (captureReady_iff _ _ _).mpr ⟨hs, hst, hw, hov, hun, ⟨hmin, hmax⟩, hin⟩
    have hpricing := weighedPricing_posted (certified := g.certified) href hpr
    have hline := weighedLine_eq c g
    rw [he, hpricing] at hline
    have hstate : (weighedLine c g).state = .posted := by rw [hline]; rfl
    have hadmits : o.admits (weighedLine c g) = true := by
      rw [admits_posted_iff hstate, hline]
      exact ⟨hlen, by dsimp only; omega, hmaxtot⟩
    have hpost := postWeighed_open (c := c) (g := g) ho
    rw [if_pos hadmits, hstate, he, hpricing] at hpost
    rw [completeCapture_ready hc hg hr hready hheld, hpost]
    refine ⟨?_, rfl, rfl, rfl, mem_insertNotice_self _ _⟩
    have hsale := congrArg Sru.openSlot (addLine_unprinted o (weighedLine c g) none s)
    rw [hline] at hsale ⊢
    exact hsale
  · intro number line reason
    have hopen : (s.judged v).openSale? = some o := h.2.2.2.2.1
    have hpost := postWeighed_open (c := c) (g := g) hopen
    have hline := weighedLine_eq c g
    have hreason : (weighedPricing c.item g.certified).1 = reason := weighedPricing_reason c.item g.certified
    rw [hreason] at hline hpost
    have hparts : (s.judged v).printParts = s.printParts := printParts_eq rfl rfl rfl
    have hkinds : (s.judged v).printKinds = s.printKinds := printKinds_eq rfl
    refine ⟨fun e he hnone hlen hlow hhigh => ?_, fun x hx hlen hrefs => ?_, fun hfull => ?_⟩
    · have hamount : (weighedPricing c.item g.certified).2 = price g.certified e.unitPrice e.basis := by
        rw [he] at hreason ⊢
        exact weighedPricing_price (hreason.trans hnone)
      have hstate : (weighedLine c g).state = .posted := by rw [hline, hnone]; rfl
      have hadmits : o.admits (weighedLine c g) = true := by
        rw [admits_posted_iff hstate, weighedLine_amount, hamount]
        exact ⟨hlen, hlow, hhigh⟩
      rw [if_pos hadmits, hstate, hnone] at hpost
      have hwork := addLine_posted_works o (weighedLine c g) (s.judged v)
      rw [hparts, hkinds] at hwork
      rw [hnone, hamount] at hline
      refine h.does hpost rfl hwork fun t hdone hclock hsru _ => ⟨?_, hdone, ?_⟩
      · rw [hclock, addLine_clock]
        rfl
      · rw [hsru, addLine_unprinted, hline]
        rfl
    · have hstate : (weighedLine c g).state = .referred := by rw [hline, hx]; rfl
      have hamount := weighedPricing_amount (hreason.trans hx)
      rw [if_pos ((admits_referred_iff hstate).mpr ⟨hlen, hrefs⟩), hstate, hx] at hpost
      have hwork := addLine_works o (weighedLine c g) (some x) (s.judged v)
      rw [hparts, hkinds] at hwork
      rw [hx, hamount] at hline
      refine h.does hpost rfl hwork fun t hdone hclock hsru hnotice => ?_
      have hclock' : t.clock = (s.judged v).clock := by rw [hclock, addLine_clock]
      refine ⟨hclock', hdone, ?_, hnotice _ (by simp [Notice.kind]) (by simp [Notice.kind]) (by simp [Notice.kind])
        (addLine_referral o _ x _)⟩
      rw [hsru, addLine_unprinted, hline, hclock']
      simp only [Sale.withLine, addReferral, Sale.append, Sale.lastNumber, List.length_append, List.length_singleton]
      rfl
    · have hadmits : o.admits (weighedLine c g) = false := by
        rw [Bool.eq_false_iff]
        intro hadm
        rcases hfull with hlen | ⟨hr, hrefs⟩ | ⟨e, he, hnone, hamount⟩
        · rw [Sale.admits, Bool.and_eq_true, hasRoom_iff] at hadm
          omega
        · obtain ⟨x, hx⟩ := Option.ne_none_iff_exists'.mp hr
          have := (admits_referred_iff (by rw [hline, hx]; rfl)).mp hadm
          omega
        · have hprice : (weighedPricing c.item g.certified).2 = price g.certified e.unitPrice e.basis := by
            rw [he] at hreason ⊢
            exact weighedPricing_price (hreason.trans hnone)
          have := (admits_posted_iff (by rw [hline, hnone]; rfl)).mp hadm
          rw [weighedLine_amount, hprice] at this
          omega
      rw [if_neg (by rw [hadmits]; exact Bool.false_ne_true)] at hpost
      exact h.does hpost rfl (Works.refl [] [] _) fun t hdone hclock _ _ => ⟨hclock, hdone⟩

end Sys2Proof.Machine
end

section
/-! Proofs about calibration (R44 to R52). -/

namespace Sys2Proof.Machine

open Sys2Proof

/-! ## What the router leaves alone -/

section
variable {i : Instr} {s u : State}

theorem AtRouter.sst (h : AtRouter i s u) : u.sst = s.sst := by
  obtain ⟨q, rfl⟩ := h.eq
  rfl

theorem AtRouter.sru (h : AtRouter i s u) : u.sru = s.sru := by
  obtain ⟨q, rfl⟩ := h.eq
  rfl

theorem AtRouter.sdc (h : AtRouter i s u) : u.sdc = s.sdc := by
  obtain ⟨q, rfl⟩ := h.eq
  rfl

theorem AtRouter.tlc (h : AtRouter i s u) : u.tlc = s.tlc := by
  obtain ⟨q, rfl⟩ := h.eq
  rfl

theorem AtRouter.pen (h : AtRouter i s u) : u.pen = s.pen := by
  obtain ⟨q, rfl⟩ := h.eq
  rfl

theorem AtRouter.pbu (h : AtRouter i s u) : u.pbu = s.pbu := by
  obtain ⟨q, rfl⟩ := h.eq
  rfl

theorem AtRouter.acp (h : AtRouter i s u) : u.acp = s.acp := by
  obtain ⟨q, rfl⟩ := h.eq
  rfl

theorem AtRouter.clock (h : AtRouter i s u) : u.clock = s.clock := by
  obtain ⟨q, rfl⟩ := h.eq
  rfl

theorem AtRouter.lane (h : AtRouter i s u) : u.lli.lane = s.lli.lane := by
  obtain ⟨q, rfl⟩ := h.eq
  rfl

theorem AtRouter.params (h : AtRouter i s u) : u.lli.params = s.lli.params := by
  obtain ⟨q, rfl⟩ := h.eq
  rfl

theorem AtRouter.printParts (h : AtRouter i s u) : u.printParts = s.printParts := printParts_eq h.pen h.pbu h.tbs

theorem AtRouter.printKinds (h : AtRouter i s u) : u.printKinds = s.printKinds := printKinds_eq h.pen

end

/-! ## Leaving CAL (R47) -/

theorem endStep_idle {r : CalResult} {s : State} (h : s.wch.cal.bind CalContext.run = none) : endStep r s = s := by
  rw [endStep, h]

theorem endStep_run {r : CalResult} {s : State} {x : CalContext} {y : CalRun} (hx : s.wch.cal = some x) (hy : x.run = some y) :
    endStep r s = raise (.cal y.step.name r) { s with wch := { s.wch with cal := some { x with run := none } } } := by
  unfold endStep
  rw [hx]
  simp only [Option.bind_some, hy]
  rfl

/-- What the end of CAL leaves of the channel (R6, R47). -/
theorem leaveCal_wch (s : State) :
    (leaveCal s).wch.state = .starting ∧ (leaveCal s).wch.cal = none ∧ (leaveCal s).wch.zo = 0 ∧
    (leaveCal s).wch.zi = none ∧ (leaveCal s).wch.tare = .none ∧ (leaveCal s).wch.ring = [] ∧
    (leaveCal s).wch.interlock = false ∧ (leaveCal s).wch.calSwitchClosed = s.wch.calSwitchClosed := by
  let dropped : State := { endStep .aborted s with wch := { (endStep .aborted s).wch with cal := none } }
  have hrestart : (restart .calLeave dropped).wch = _ := restart_wch .calLeave dropped
  have hend := endCapture_wch .fault dropped
  obtain ⟨hwindow, hcal⟩ := holdLifted_window (restart .calLeave dropped)
  have hnone : (restart .calLeave dropped).wch.cal = none := by
    rw [hrestart]
    show (endCapture .fault dropped).wch.cal = none
    rw [hend]
  have hleft : (leaveCal s).wch =
      { (endCapture .fault dropped).wch.restarted .calLeave dropped.clock with
        window := (leaveCal s).wch.window, cal := none } := by
    have hcal' : (leaveCal s).wch.cal = none := hcal hnone
    rw [← hcal', ← hrestart]
    exact hwindow
  rw [hleft]
  refine ⟨rfl, rfl, rfl, rfl, rfl, rfl, rfl, ?_⟩
  show (endCapture .fault dropped).wch.calSwitchClosed = _
  rw [hend]
  show (endStep .aborted s).wch.calSwitchClosed = _
  rw [endStep_wch]

/-- A step in progress ends ABORTED (R47). -/
theorem leaveCal_aborts {s : State} {x : CalContext} {y : CalRun} (hx : s.wch.cal = some x) (hy : x.run = some y) :
    Standing (leaveCal s) (.cal y.step.name .aborted) := by
  have hended : Standing (endStep .aborted s) (.cal y.step.name .aborted) := by
    rw [endStep_run hx hy]
    exact standing_raise _ _
  refine Standing.holdLifted (Standing.restart .calLeave (n := .cal y.step.name .aborted) ?_ (by simp [Notice.kind]))
  exact hended.of_notices rfl

theorem slotParts_with {s : State} {w : Wch} (h : w.capture = s.wch.capture) :
    ({ s with wch := w } : State).slotParts = s.slotParts := slotParts_eq (u := { s with wch := w }) h

theorem leaveCal_works_in_cal {s : State} (h : s.wch.state = .cal) :
    Works ([.weighing] ++ s.slotParts ++ s.holdParts) [3, 4, 14] s (leaveCal s) := by
  refine (leaveCal_works s).mono (fun p hp => ?_) (fun _ => id)
  rw [State.holdParts, if_pos h]
  simp only [List.mem_cons, List.mem_append, List.not_mem_nil, or_false] at hp ⊢
  tauto

/-- Settles O22: the change kept, and the switch opened in CAL. -/
theorem openingTheCalibrationSwitchLeavesCal : Obligations.OpeningTheCalibrationSwitchLeavesCal := by
  unfold Obligations.OpeningTheCalibrationSwitchLeavesCal
  intro s
  have hopened (hc : s.wch.calSwitchClosed = true) :
      calSwitchChanges false s = switchOpens { s with wch := { s.wch with calSwitchClosed := false } } := by
    simp [calSwitchChanges, hc]
  refine ⟨fun hc => ?_, fun hc hs => ?_, fun hc hs hn => ?_, fun c hc hs hn hcal => ?_⟩
  · have he : calSwitchChanges true s = { s with wch := { s.wch with calSwitchClosed := true } } := by
      simp [calSwitchChanges, hc]
    refine does_of (f := calSwitchChanges true) rfl ?_ (.inl ?_) ?_ <;> rw [he]
    · exact with_wch_works _ s
    · rfl
    · rw [finish_wch]
  · have he : calSwitchChanges false s = { s with wch := { s.wch with calSwitchClosed := false } } := by
      rw [hopened hc, switchOpens]
      exact if_pos hs
    refine does_of (f := calSwitchChanges false) rfl ?_ (.inl ?_) ?_ <;> rw [he]
    · exact with_wch_works _ s
    · rfl
    · rw [finish_wch]
  · have he : calSwitchChanges false s =
        raise (.cal .leave .ok) (leaveCal { s with wch := { s.wch with calSwitchClosed := false } }) := by
      rw [hopened hc, switchOpens, if_neg (not_not_intro hs)]
      exact if_neg (by rw [hn]; exact Bool.false_ne_true)
    have hworks := leaveCal_works_in_cal (s := { s with wch := { s.wch with calSwitchClosed := false } }) hs
    refine does_of (f := calSwitchChanges false) rfl ?_ (.inr (by simp)) ?_ <;> rw [he]
    · refine Works.raised ?_ (by simp [Notice.kind])
      exact ((with_wch_works _ s).mono (by simp) (by simp)).trans (hworks.mono (fun _ => id) (by simp))
    · rw [finish_wch]
      obtain ⟨hstate, hcal, hzo, hzi, htare, hring, _, hswitch⟩ :=
        leaveCal_wch { s with wch := { s.wch with calSwitchClosed := false } }
      exact ⟨hswitch, hstate, hcal, hzo, hzi, htare, hring, (standing_raise _ _).finish s (by simp [Notice.kind])⟩
  · have he : calSwitchChanges false s =
        { s with wch := { s.wch with calSwitchClosed := false, cal := some { c with pendingLeave := true } } } := by
      rw [hopened hc, switchOpens, if_neg (not_not_intro hs)]
      refine (if_pos hn).trans ?_
      dsimp only
      rw [hcal]
      rfl
    refine does_of (f := calSwitchChanges false) rfl ?_ (.inl ?_) ?_ <;> rw [he]
    · exact with_wch_works _ s
    · rfl
    · rw [finish_wch]

/-! ## Entering and leaving by request (R46, R47) -/

theorem withdrawSolenoid_req (s : State) : (withdrawSolenoid s).pbu.solenoidReq = none := by
  unfold withdrawSolenoid
  rcases examine_cases { s with pbu := { s.pbu with solenoidReq := none } } with ⟨h, _, _⟩ | ⟨r, _, _, e⟩ | e
  · cases h
  · rw [e]
    rfl
  · rw [e]

/-- A hold that comes withdraws a drawer that waits (R109). -/
theorem holdImposed_withdraws {s : State} (h : s.tlc.state = .waitGrant) :
    (holdImposed s).tlc.state = .closed ∧ (holdImposed s).pbu.solenoidReq = none := by
  rw [holdImposed, if_pos h]
  obtain ⟨_, _, _, hparts, _⟩ := withdrawSolenoid_works { s with tlc := { s.tlc with state := .closed } }
  have htlc : (withdrawSolenoid { s with tlc := { s.tlc with state := .closed } }).tlc = _ := hparts .till (by simp)
  exact ⟨by rw [htlc], withdrawSolenoid_req _⟩

theorem holdImposed_wch (s : State) : (holdImposed s).wch = s.wch := by
  obtain ⟨_, _, _, hparts, _⟩ := holdImposed_works s
  refine hparts .weighing ?_
  unfold State.withdrawParts
  split <;> simp

/-- Settles O23: CAL entered, left, and each refusal. -/
theorem calEnterAndLeaveRestartTheChannel : Obligations.CalEnterAndLeaveRestartTheChannel := by
  unfold Obligations.CalEnterAndLeaveRestartTheChannel
  refine ⟨fun tag s => ⟨fun hswitch hcal hfault hconv htest ho hc hcap hin => ?_, fun h => ?_⟩, fun tag s =>
    ⟨fun hcal hn => ?_, fun h => ?_, fun hcal hn => ?_⟩⟩
  · refine serves_of (h := calEnter) rfl fun u hu => ?_
    obtain ⟨q, rfl⟩ := hu.eq
    let u : State := { s with lli := { s.lli with requests := q } }
    let r : State := { u with wch := { u.wch with cal := some CalContext.empty }.restarted .calEnter u.clock }
    have hempty : u.slotsEmpty = true := (slotsEmpty_iff u).mpr ⟨ho, hc⟩
    have he : calEnter u = okay [] (holdImposed r) := by
      have hrestart : restart .calEnter { u with wch := { u.wch with cal := some CalContext.empty } } = r :=
        restart_wch_of_empty hcap
      rw [← hrestart]
      unfold calEnter
      rw [if_neg (by simp [u, hswitch]), if_neg hcal, if_neg hfault, if_neg hconv, if_neg htest, if_neg (by simp [hempty]),
        if_neg (by simp [u, hcap]), if_neg (by simp [u, hin])]
    have hworks : Works (.weighing :: s.withdrawParts) [2] u (holdImposed r) :=
      ((with_wch_works _ u).mono (by simp) (by simp)).trans
        ((holdImposed_works r).mono (fun p hp => List.mem_cons_of_mem _ hp) (by simp))
    rw [he]
    refine ⟨rfl, hworks, .inr (by simp), ?_⟩
    rw [finish_wch, finish_tlc, finish_pbu]
    show (holdImposed r).wch.state = _ ∧ (holdImposed r).wch.cal = _ ∧ (holdImposed r).wch.zo = _ ∧
      (holdImposed r).wch.zi = _ ∧ (holdImposed r).wch.tare = _ ∧ (holdImposed r).wch.ring = _ ∧
      (holdImposed r).wch.interlock = _ ∧ (_ → (holdImposed r).tlc.state = _ ∧ (holdImposed r).pbu.solenoidReq = _)
    rw [holdImposed_wch]
    exact ⟨rfl, rfl, rfl, rfl, rfl, rfl, rfl, fun hw => holdImposed_withdraws hw⟩
  · refine refuses_of (h := calEnter) rfl fun u hu => ?_
    rw [calEnter, hu.wch, h]
    rfl
  · refine serves_of (h := calLeave) rfl fun u hu => ?_
    obtain ⟨q, rfl⟩ := hu.eq
    let u : State := { s with lli := { s.lli with requests := q } }
    have he : calLeave u = okay [] (leaveCal u) := by
      rw [calLeave, if_neg (not_not_intro hcal)]
      exact if_neg (by rw [hn]; exact Bool.false_ne_true)
    rw [he]
    refine ⟨rfl, (leaveCal_works_in_cal (s := u) hcal).mono (fun _ => id) (by simp), .inr (by simp), ?_⟩
    obtain ⟨hstate, hcal', hzo, hzi, htare, hring, hlock, _⟩ := leaveCal_wch u
    rw [finish_wch]
    exact ⟨hstate, hcal', hzo, hzi, htare, hring, hlock, fun x y hx hy =>
      ((leaveCal_aborts hx hy).of_notices (t := respond _ _) rfl).finish s (by simp [Notice.kind])⟩
  · refine refuses_of (h := calLeave) rfl fun u hu => ?_
    rw [calLeave, hu.wch, if_pos h]
  · refine refuses_of (h := calLeave) rfl fun u hu => ?_
    obtain ⟨q, rfl⟩ := hu.eq
    rw [calLeave, if_neg (not_not_intro hcal)]
    exact if_pos hn

/-! ## Steps (R48 to R51) -/

theorem calRefusal_none {s : State} {c : CalContext} (hw : s.wch.calSwitchClosed = true) (hs : s.wch.state = .cal)
    (hc : s.wch.cal = some c) (hr : c.run = none) (hn : s.sst.commitInFlight = false) : calRefusal s = none := by
  simp [calRefusal, hw, hs, hc, hr, hn]

theorem editCal_some {f : CalContext → CalContext} {s : State} {c : CalContext} (h : s.wch.cal = some c) :
    editCal f s = { s with wch := { s.wch with cal := some (f c) } } := by
  rw [editCal, h]
  rfl

/-- The figures that limit the mass of CAL_SPAN (R49, log 38). -/
theorem maxForSpan_all {s : State} {c : CalContext} (hc : s.wch.cal = some c) (m : Nat) :
    s.maxForSpan.all (massFits m) = true ↔
      (∀ g, c.ranges = some g → g.max ≤ 10 * m ∧ m ≤ g.max) ∧
      (c.ranges = none → s.sst.image.record.valid = true →
        s.sst.image.record.max ≤ 10 * m ∧ m ≤ s.sst.image.record.max) := by
  unfold State.maxForSpan
  rw [hc, Option.bind_some]
  cases hr : c.ranges with
  | some g => simp [massFits]
  | none =>
    dsimp only
    cases hv : s.sst.image.record.valid <;> simp [massFits]

/-- Settles O24: each step begun or refused, and the step timer. -/
theorem calibrationStepsBeginAndTimeOut : Obligations.CalibrationStepsBeginAndTimeOut := by
  unfold Obligations.CalibrationStepsBeginAndTimeOut
  refine ⟨fun tag s c hswitch hs hc hr hn => ?_, fun s c y hc hy => ?_⟩
  · have hfree {i : Instr} {u : State} (hu : AtRouter i s u) : calRefusal u = none ∧ u.wch.cal = some c :=
      ⟨calRefusal_none (by rw [hu.wch, hswitch]) (by rw [hu.wch, hs]) (by rw [hu.wch, hc]) hr (by rw [hu.sst, hn]),
        by rw [hu.wch, hc]⟩
    have hspan {i : Instr} {u : State} (hu : AtRouter i s u) (m : Nat) :
        calSpan m u = if (c.zero).isNone then refuse .state u
          else if m < 1 ∨ 30000 < m then refuse .range u
          else if !u.maxForSpan.all (massFits m) then refuse .range u
          else accept { u with wch := { u.wch with
            cal := some { c with span := none, run := some (beginStep (.span m) u.clock) } } } := by
      obtain ⟨hf, hcal⟩ := hfree hu
      rw [calSpan, hf]
      dsimp only
      rw [editCal_some hcal, hcal]
      rfl
    refine ⟨?_, fun m hz hm1 hm2 hg hrec => ?_, fun m hz => ?_, fun m hz hm => ?_, fun max1 e1 max e2 hv => ?_,
      fun max1 e1 max e2 hv => ?_⟩
    · refine serves_of (h := calZero) rfl fun u hu => ?_
      obtain ⟨hf, hcal⟩ := hfree hu
      have he : calZero u = accept { u with wch := { u.wch with cal := some { c with
          zero := none, span := none, run := some (beginStep .zero u.clock) } } } := by
        rw [calZero, hf]
        dsimp only
        rw [editCal_some hcal]
      rw [he]
      exact ⟨rfl, with_wch_works _ _, .inl rfl, by rw [finish_wch]; rfl⟩
    · refine serves_of (h := calSpan m) rfl fun u hu => ?_
      have hmax : u.maxForSpan.all (massFits m) = true :=
        (maxForSpan_all (hfree hu).2 m).mpr ⟨hg, by rw [hu.sst]; exact hrec⟩
      rw [hspan hu, if_neg (by simpa using hz), if_neg (by omega), hmax, if_neg (by simp)]
      exact ⟨rfl, with_wch_works _ _, .inl rfl, by rw [finish_wch]; rfl⟩
    · refine refuses_of (h := calSpan m) rfl fun u hu => ?_
      rw [hspan hu, if_pos (by simp [hz])]
    · refine refuses_of (h := calSpan m) rfl fun u hu => ?_
      rw [hspan hu, if_neg (by simpa using hz)]
      by_cases hrange : m < 1 ∨ 30000 < m
      · rw [if_pos hrange]
      · rw [if_neg hrange, if_pos]
        rw [Bool.not_eq_true', Bool.eq_false_iff]
        intro hall
        obtain ⟨hg, hrec⟩ := (maxForSpan_all (hfree hu).2 m).mp hall
        rw [hu.sst] at hrec
        rcases hm with h | h | ⟨g, hgr, h⟩ | ⟨hnone, hv, h⟩
        · omega
        · omega
        · have := hg g hgr
          omega
        · have := hrec hnone hv
          omega
    · refine serves_of (h := calRanges max1 e1 max e2) rfl fun u hu => ?_
      obtain ⟨hf, hcal⟩ := hfree hu
      have he : calRanges max1 e1 max e2 u = accept (raise (.cal .ranges .ok)
          { u with wch := { u.wch with cal := some { c with ranges := some ⟨max1, e1, max, e2⟩ } } }) := by
        rw [calRanges, hf]
        dsimp only
        rw [if_pos hv, editCal_some hcal]
      rw [he]
      refine ⟨rfl, ((with_wch_works _ u).mono (by simp) (by simp)).raised (by simp [Notice.kind]), .inl rfl, ?_,
        ((standing_raise _ _).of_notices (t := respond _ _) rfl).finish s (by simp [Notice.kind])⟩
      rw [finish_wch]
      rfl
    · refine refuses_of (h := calRanges max1 e1 max e2) rfl fun u hu => ?_
      rw [calRanges, (hfree hu).1]
      dsimp only
      rw [if_neg (by rw [hv]; exact Bool.false_ne_true)]
  · have he : stepTimeout s = endStep .timeout (reach y.due s) := by
      unfold stepTimeout
      rw [hc]
      simp only [Option.bind_some, hy]
    have hrun : endStep .timeout (reach y.due s) = _ := endStep_run (s := reach y.due s) hc hy
    refine does_of (f := stepTimeout) rfl ?_ (.inl ?_) ?_ <;> rw [he, hrun]
    · exact (((reach_works y.due s).mono (by simp) (by simp)).trans ((with_wch_works _ _).mono (by simp) (by simp))).raised
        (by simp [Notice.kind])
    · rfl
    · rw [finish_clock, finish_wch]
      exact ⟨rfl, rfl, (standing_raise _ _).finish s (by simp [Notice.kind])⟩

/-! ## The commit (R52) -/

theorem massFits_iff (m max : Nat) : massFits m max = true ↔ max ≤ 10 * m ∧ m ≤ max := by simp [massFits]

theorem with_sst_works (x : Sst) (s : State) : Works [.store] [] s { s with sst := x } :=
  Works.of rfl rfl rfl rfl fun p hp => by
    cases p with
    | store => exact absurd (List.mem_singleton_self _) hp
    | _ => rfl

/-- Settles O25: the write started, and its refusals. -/
theorem calCommitStartsTheWrite : Obligations.CalCommitStartsTheWrite := by
  unfold Obligations.CalCommitStartsTheWrite
  intro tag s c z d m g hswitch hs hc hr hz hd hg
  have he {u : State} (hu : AtRouter (.calCommit tag) s u) : calCommit u =
      if !massFits m g.max then refuse .range u
      else if s.sst.inFlight.isSome || s.sst.pendingTotals then refuse .busy u
      else if s.pbu.warning then refuse .busy u
      else accept (startWrite (u.commitData (commitRecord z (d, m) g)) u) := by
    unfold calCommit
    rw [hu.wch, hu.sst, hu.pbu, if_neg (by simp [hswitch]), if_neg (not_not_intro hs), hc]
    simp only [Option.bind_some, hr, hz, hd, hg]
    rfl
  refine ⟨fun h1 h2 hin hp hw => ?_, fun h => ?_, fun h1 h2 h => ?_⟩
  · refine serves_of (h := calCommit) rfl fun u hu => ?_
    rw [he hu, (massFits_iff _ _).mpr ⟨h1, h2⟩, if_neg (by simp), if_neg (by simp [hin, hp]), if_neg (by simp [hw])]
    refine ⟨rfl, with_sst_works _ _, .inl rfl, ?_⟩
    rw [finish_sst]
    rfl
  · refine refuses_of (h := calCommit) rfl fun u hu => ?_
    rw [he hu, if_pos]
    rw [Bool.not_eq_true', Bool.eq_false_iff]
    intro hf
    have := (massFits_iff _ _).mp hf
    omega
  · refine refuses_of (h := calCommit) rfl fun u hu => ?_
    rw [he hu, (massFits_iff _ _).mpr ⟨h1, h2⟩, if_neg (by simp)]
    by_cases hb : (s.sst.inFlight.isSome || s.sst.pendingTotals) = true
    · rw [if_pos hb]
    · have hw : s.pbu.warning = true := by
        rw [Bool.or_eq_true, not_or] at hb
        rcases h with h | h | h
        · exact absurd (Option.isSome_iff_ne_none.mpr h) hb.1
        · exact absurd h hb.2
        · exact h
      rw [if_neg hb, if_pos hw]

end Sys2Proof.Machine
end

section
/-! Proofs about the end of a sealed write (R52, R54 to R56). -/

namespace Sys2Proof.Machine

open Sys2Proof

/-! ## What the end of a commit leaves of PBU and the lane link -/

theorem examine_warning (s : State) : (examine s).pbu.warning = s.pbu.warning := by
  rcases examine_cases s with ⟨_, _, e⟩ | ⟨r, _, _, e⟩ | e <;> rw [e]
  · unfold grantSolenoid openWindow
    split <;> rfl
  · rfl

theorem holdLifted_warning (s : State) : (holdLifted s).pbu.warning = s.pbu.warning := by
  unfold holdLifted towardGrant placeSolenoid
  split
  · split
    · rfl
    · rw [examine_warning]
  · rfl

theorem restart_pbu (c : RestartCause) (s : State) : (restart c s).pbu = s.pbu := by
  obtain ⟨_, _, _, hparts, _⟩ := restart_works c s
  refine hparts .budget ?_
  unfold State.slotParts
  split <;> simp

theorem leaveCal_warning (s : State) : (leaveCal s).pbu.warning = s.pbu.warning := by
  obtain ⟨_, _, _, hparts, _⟩ := endStep_works .aborted s
  have hended : (endStep .aborted s).pbu = s.pbu := hparts .budget (by simp)
  rw [leaveCal, holdLifted_warning, restart_pbu]
  exact congrArg Pbu.warning hended

theorem commitDone_warning (s : State) : (commitDone s).pbu.warning = s.pbu.warning := by
  unfold commitDone
  dsimp only
  split
  · rw [leaveCal_warning]
    rfl
  · rfl

theorem writeDone_warning (d : WriteData) (s : State) : (writeDone d s).pbu.warning = s.pbu.warning := by
  unfold writeDone
  split
  · rfl
  · rw [commitDone_warning]
  · rw [commitDone_warning]
    rfl

theorem writeDone_kept (d : WriteData) (s : State) :
    (writeDone d s).clock = s.clock ∧ (writeDone d s).lli.resetAnswer = s.lli.resetAnswer := by
  obtain ⟨_, _, _, hparts, _⟩ := writeDone_works d s
  have hsub : Part.clock ∉ Part.store :: s.commitParts ∧ Part.link ∉ Part.store :: s.commitParts := by
    unfold State.commitParts State.slotParts State.holdParts
    split <;> split <;> decide
  have hlink : (writeDone d s).lli.settings = s.lli.settings := hparts .link hsub.2
  have hanswer := congrArg Lli.resetAnswer hlink
  exact ⟨hparts .clock hsub.1, hanswer⟩

/-! ## The next write (R55, R56) -/

theorem nextWrite_eq (x : State) :
    nextWrite x =
      if x.sst.pendingTotals = true ∧ x.sst.inFlight = none ∧ x.pbu.warning = false ∧ x.lli.resetAnswer = .none then
        { x with sst := { x.sst with
            pendingTotals := false
            inFlight := some ⟨.totals x.sst.image.saleCounter x.sst.image.grandTotal, x.clock + 50000⟩ } }
      else x := by
  unfold nextWrite startPending
  by_cases h : x.sst.pendingTotals = true ∧ x.sst.inFlight = none ∧ x.pbu.warning = false ∧ x.lli.resetAnswer = .none
  · obtain ⟨hp, hin, hw, hr⟩ := h
    simp [hp, hin, hw, hr]
    rfl
  · rw [if_neg h]
    by_cases hr : x.lli.resetAnswer = .none
    · rw [if_pos hr, if_neg]
      simp only [Bool.and_eq_true, Option.isNone_iff_eq_none, Bool.not_eq_true']
      exact fun ⟨⟨hp, hin⟩, hw⟩ => h ⟨hp, hin, hw, hr⟩
    · rw [if_neg hr]

theorem nextWrite_wch (x : State) : (nextWrite x).wch = x.wch := by
  rw [nextWrite_eq]
  split <;> rfl

theorem Standing.nextWrite {x : State} {n : Notice} (h : Standing x n) : Standing (nextWrite x) n := by
  refine h.of_notices ?_
  rw [nextWrite_eq]
  split <;> rfl

/-- The write that follows the one that ended (R55). -/
def FollowingWrite (s t : State) : Prop :=
  if s.sst.pendingTotals = true ∧ s.pbu.warning = false ∧ s.lli.resetAnswer = .none then
    t.sst.inFlight = some ⟨.totals t.sst.image.saleCounter t.sst.image.grandTotal, s.clock + 50000⟩ ∧
    t.sst.pendingTotals = false
  else t.sst.inFlight = none ∧ t.sst.pendingTotals = s.sst.pendingTotals

/-- The store when a write has completed: all but the next write is as the completion says. -/
theorem nextWrite_writeDone_sst (d : WriteData) (s : State) :
    (nextWrite (writeDone d s)).sst = { s.sst.complete d with
      inFlight := (nextWrite (writeDone d s)).sst.inFlight
      pendingTotals := (nextWrite (writeDone d s)).sst.pendingTotals } ∧
    FollowingWrite s (nextWrite (writeDone d s)) := by
  obtain ⟨hclock, hreset⟩ := writeDone_kept d s
  rw [nextWrite_eq, writeDone_sst, writeDone_warning, hclock, hreset]
  unfold FollowingWrite
  by_cases h : s.sst.pendingTotals = true ∧ s.pbu.warning = false ∧ s.lli.resetAnswer = .none
  · obtain ⟨hp, hw, hr⟩ := h
    have hstarts : (s.sst.complete d).pendingTotals = true ∧ (s.sst.complete d).inFlight = none ∧
        s.pbu.warning = false ∧ s.lli.resetAnswer = .none := ⟨hp, rfl, hw, hr⟩
    rw [if_pos hstarts, if_pos ⟨hp, hw, hr⟩]
    exact ⟨rfl, rfl, rfl⟩
  · have hwaits : ¬((s.sst.complete d).pendingTotals = true ∧ (s.sst.complete d).inFlight = none ∧
        s.pbu.warning = false ∧ s.lli.resetAnswer = .none) := fun ⟨hp, _, hw, hr⟩ => h ⟨hp, hw, hr⟩
    rw [if_neg hwaits, if_neg h, writeDone_sst]
    exact ⟨rfl, rfl, rfl⟩

theorem exec_writeEnd {i : Instr} {how : WriteEnd} {s : State} {w : Write} (he : exec i s = .next (writeEnds how s.pins s))
    (hw : s.sst.inFlight = some w) (ha : s.lli.awaited = none) :
    exec i s = event (fun x => nextWrite (endWrite how w x)) s := by
  rw [he, writeEnds, hw]
  simp only [ha]
  rfl

/-! ## The completed write -/

theorem commitDone_ok {s : State} {x : CalContext} (hx : s.wch.cal = some x) (hr : x.run = none) :
    Standing (commitDone s) (.cal .commit .ok) := by
  have hraised : Standing (raise (.cal .commit .ok) { s with wch := { s.wch with
      cal := s.wch.cal.map fun c => { c with zero := none, span := none, ranges := none } } }) (.cal .commit .ok) :=
    standing_raise _ _
  unfold commitDone
  dsimp only
  split
  · rw [leaveCal, endStep_idle]
    · refine Standing.holdLifted (Standing.restart .calLeave (n := .cal .commit .ok) ?_ (by simp [Notice.kind]))
      exact hraised.of_notices rfl
    · show (s.wch.cal.map _).bind CalContext.run = none
      rw [hx]
      exact hr
  · exact hraised

theorem commitDone_wch {s : State} {x : CalContext} (hs : s.wch.state = .cal) (hx : s.wch.cal = some x) :
    (x.pendingLeave = false → (commitDone s).wch.cal = some { x with zero := none, span := none, ranges := none }) ∧
    (x.pendingLeave = true → (commitDone s).wch.state = .starting ∧ (commitDone s).wch.cal = none) := by
  refine ⟨fun hp => ?_, fun hp => ?_⟩
  · rw [commitDone, if_neg (by simp [hx, hp])]
    show s.wch.cal.map _ = _
    rw [hx]
    rfl
  · rw [commitDone, if_pos ⟨hs, by simp [hx, hp]⟩]
    obtain ⟨hstate, hcal, _⟩ := leaveCal_wch (raise (.cal .commit .ok)
      { s with wch := { s.wch with cal := s.wch.cal.map fun c => { c with zero := none, span := none, ranges := none } } })
    exact ⟨hstate, hcal⟩

theorem Standing.commitDone {s : State} {n : Notice} (h : Standing s n) (hk : n.kind ≠ 3 ∧ n.kind ≠ 4 ∧ n.kind ≠ 14) :
    Standing (commitDone s) n := by
  unfold Machine.commitDone
  dsimp only
  have hraised : Standing (raise (.cal .commit .ok) { s with wch := { s.wch with
      cal := s.wch.cal.map fun c => { c with zero := none, span := none, ranges := none } } }) n :=
    Standing.raised _ (h.of_notices rfl) (by simpa [Notice.kind] using Ne.symm hk.2.1)
  split
  · exact hraised.leaveCal hk
  · exact hraised

/-- Settles O26: each kind of write completed, and the check of the store that it leaves. -/
theorem completedWriteStandsAndPassesItsCheck : Obligations.CompletedWriteStandsAndPassesItsCheck := by
  unfold Obligations.CompletedWriteStandsAndPassesItsCheck
  intro next
  refine ⟨fun s w hw ha => ?_, fun s t w pins hw ha hp ht => ?_⟩
  · have he := exec_writeEnd (how := .completed) (i := .writeComplete) rfl hw ha
    obtain ⟨hsst, hnext⟩ := nextWrite_writeDone_sst w.data s
    have hnextWorks := nextWrite_works (writeDone w.data s)
    refine ⟨fun n total hd => ?_, fun r n hd => ?_, fun g hd => ?_⟩
    · rw [hd] at hsst hnext hnextWorks
      refine does_of he ?_ (.inl ?_) ?_ <;> rw [endWrite, hd]
      · exact (complete_works _ s).trans hnextWorks
      · rw [nextWrite_wch]
        rfl
      · show _ ∧ _ ∧ _ ∧ _ ∧ FollowingWrite s _
        unfold FollowingWrite
        rw [finish_sst]
        refine ⟨?_, ?_, ?_, ?_, hnext⟩ <;> rw [hsst] <;> rfl
    · rw [hd] at hsst hnext hnextWorks
      have hworks : Works (.store :: s.commitParts) [3, 4, 14] s (writeDone (.calibration r n) s) :=
        ((complete_works _ s).mono (by simp) (by simp)).trans
          ((commitDone_works _).mono (fun p hp => List.mem_cons_of_mem _ hp) (by simp))
      refine does_of he ?_ (.inr (by simp)) ?_ <;> rw [endWrite, hd]
      · exact (hworks.mono (fun p hp => by simpa [State.commitParts] using hp) (by simp)).trans
          (hnextWorks.mono (by simp) (by simp))
      · show _ ∧ _ ∧ _ ∧ _ ∧ FollowingWrite s _ ∧ _
        unfold FollowingWrite
        rw [finish_sst, finish_wch, nextWrite_wch]
        refine ⟨?_, ?_, ?_, ?_, hnext, fun x hx hs hr => ?_⟩
        · rw [hsst]
          rfl
        · rw [hsst]
          rfl
        · rw [hsst]
          rfl
        · rw [hsst]
          rfl
        · obtain ⟨hkept, hleft⟩ := commitDone_wch (s := { s with sst := s.sst.complete (.calibration r n) }) hs hx
          have hok := commitDone_ok (s := { s with sst := s.sst.complete (.calibration r n) }) hx hr
          exact ⟨hok.nextWrite.finish s (by simp [Notice.kind]), hkept, hleft⟩
    · rw [hd] at hsst hnext hnextWorks
      have hworks := writeDone_works (.whole g) s
      refine does_of he ?_ (.inr (by simp)) ?_ <;> rw [endWrite, hd]
      · exact (hworks.mono (fun p hp => by simpa [State.commitParts] using hp) (by simp)).trans
          (hnextWorks.mono (by simp) (by simp))
      · show _ ∧ _ ∧ _ ∧ _ ∧ FollowingWrite s _ ∧ _
        unfold FollowingWrite
        rw [finish_sst]
        have hraised : Standing (raise (.store .intact) { s with sst := s.sst.complete (.whole g) }) (.store .intact) :=
          standing_raise _ _
        refine ⟨?_, ?_, ?_, ?_, hnext,
          (hraised.commitDone (by simp [Notice.kind])).nextWrite.finish s (by simp [Notice.kind])⟩ <;> rw [hsst] <;> rfl
  · have he := exec_writeEnd (how := .completed) (i := .writeComplete) rfl hw ha
    rw [he] at ht
    obtain rfl : finish s (nextWrite (writeDone w.data s)) = t := by
      injection ht
    obtain ⟨hsst, hnext⟩ := nextWrite_writeDone_sst w.data s
    unfold FollowingWrite at hnext
    rw [if_neg (by simp [hp])] at hnext
    obtain ⟨hnone, _⟩ := hnext
    refine ⟨_, rfl, ?_⟩
    have hidle : (finish s (nextWrite (writeDone w.data s))).sst.inFlight = none := by rw [finish_sst, hnone]
    dsimp only
    rw [cutOffWrite_idle hidle, resetPart_sst, finish_sst, hsst]
    exact ⟨(complete_checked s.sst w.data).2.2, rfl⟩

/-! ## The write timer (R55) -/

theorem enterFault_state (c : FaultCause) (s : State) :
    (enterFault c s).wch.state = .fault ∧ (enterFault c s).wch.faultCause = some c ∧
    (s.wch.state ≠ .fault → (enterFault c s).wch.cal = none) := by
  by_cases h : s.wch.state = .fault
  · rw [enterFault, if_pos h]
    exact ⟨h, rfl, fun hn => absurd h hn⟩
  · obtain ⟨hwch, _⟩ := enterFault_wch c h
    rw [hwch, faultedWch_eq]
    exact ⟨rfl, rfl, fun _ => rfl⟩

theorem nextWrite_idle {x : State} (h : x.sst.pendingTotals = false) : nextWrite x = x := by
  rw [nextWrite_eq, if_neg (by simp [h])]

/-- The notices and the channel when a write has failed (R52, R55). -/
theorem writeFailed_leaves (w : Write) (s : State) :
    (writeFailed w s).wch.state = .fault ∧ (writeFailed w s).wch.faultCause = some .store ∧
    (s.wch.state ≠ .fault → (writeFailed w s).wch.cal = none) ∧ Standing (writeFailed w s) (.store .fault) ∧
    ((∀ n total, w.data ≠ .totals n total) → Standing (writeFailed w s) (.cal .commit .writeTimeout)) := by
  let t := raise (.store .fault) { s with sst := { s.sst with state := .fault, inFlight := none, pendingTotals := false } }
  obtain ⟨hstate, hcause, hcal⟩ := enterFault_state .store t
  have hstore : Standing (enterFault .store t) (.store .fault) :=
    Standing.enterFault (n := .store .fault) .store (standing_raise _ _) (by simp [Notice.kind])
  have hcommit : Standing (raise (.cal .commit .writeTimeout) (enterFault .store t)) (.store .fault) :=
    hstore.raised _ (by simp [Notice.kind])
  unfold writeFailed
  split
  · rename_i n total hd
    exact ⟨hstate, hcause, hcal, hstore, fun hn => absurd hd (hn n total)⟩
  · exact ⟨hstate, hcause, hcal, hcommit, fun _ => standing_raise _ _⟩
  · exact ⟨hstate, hcause, hcal, hcommit, fun _ => standing_raise _ _⟩

/-- Settles O27: the write's timer. -/
theorem writeTimeoutFaultsTheStore : Obligations.WriteTimeoutFaultsTheStore := by
  unfold Obligations.WriteTimeoutFaultsTheStore
  intro s w hw ha
  have he := exec_writeEnd (how := .timedOut) (i := .writeTimeout) rfl hw ha
  have hsst := writeFailed_sst w (reach w.due s)
  have hworks := writeFailed_works w (reach w.due s)
  have hrun : nextWrite (endWrite .timedOut w s) = writeFailed w (reach w.due s) :=
    nextWrite_idle (by rw [endWrite_timedOut_sst])
  obtain ⟨hstate, hcause, hcal, hstore, hcommit⟩ := writeFailed_leaves w (reach w.due s)
  have hclock : (writeFailed w (reach w.due s)).clock = max s.clock w.due := by
    obtain ⟨_, _, _, hparts, _⟩ := hworks
    refine hparts .clock ?_
    unfold State.commitParts State.slotParts State.holdParts
    split <;> split <;> decide
  have hslot : (reach w.due s).slotParts = s.slotParts := rfl
  have hhold : (reach w.due s).holdParts = s.holdParts := rfl
  refine does_of he ?_ (.inr (by simp)) ?_ <;> rw [hrun]
  · exact ((reach_works w.due s).mono (by simp) (by simp)).trans
      (hworks.mono (fun p hp => List.mem_cons_of_mem _ (by simpa [State.commitParts, hslot, hhold] using hp)) (by simp))
  · rw [finish_clock, finish_sst, finish_wch]
    exact ⟨hclock, hsst, hstate, hcause, hcal, hstore.finish s (by simp [Notice.kind]),
      fun hn => (hcommit hn).finish s (by simp [Notice.kind])⟩

end Sys2Proof.Machine
end

section
/-! Proofs about the sale: opening, item lines and voids (R59, R62 to R66, R68, R72, R73). -/

namespace Sys2Proof.Machine

open Sys2Proof

/-- Work on some parts leaves any other as it was. -/
theorem Works.part {ps : List Part} {ks : List Nat} {s t : State} (h : Works ps ks s t) {p : Part} (hp : p ∉ ps) :
    exactPart s t p := by
  obtain ⟨_, _, _, hparts, _⟩ := h
  exact hparts p hp

theorem exactPart_trans {s t u : State} {p : Part} (h : exactPart s t p) (h' : exactPart t u p) : exactPart s u p := by
  cases p <;> exact Eq.trans h' h

/-! ## What the composer leaves alone -/

theorem startRow_auth (p : PrintLine) (s : State) : (startRow p s).tlc.auth = s.tlc.auth := by
  unfold startRow placePhase
  split
  · rfl
  · rw [examine_auth]
    rfl

theorem swapPrintTables_tlc (s : State) : (swapPrintTables s).tlc = s.tlc := by
  unfold swapPrintTables trySwap
  (repeat' split) <;> rfl

theorem haltTest_auth {s t : State} (h : haltTest s = some t) : t.tlc.auth = s.tlc.auth := by
  unfold haltTest at h
  split at h
  · cases h
    rw [actMark, enterHalt, swapPrintTables_tlc]
    rfl
  · split at h
    · cases h
      rw [enterHalt, swapPrintTables_tlc]
      rfl
    · cases h

theorem composerFill_tlc (s : State) : (composerFill s).tlc = s.tlc := by
  unfold composerFill
  split <;> rfl

theorem goOnFrom_auth (fuel : Nat) (s : State) : (goOnFrom fuel s).tlc.auth = s.tlc.auth := by
  induction fuel generalizing s with
  | zero => rfl
  | succ fuel ih =>
    unfold goOnFrom
    split
    · exact haltTest_auth ‹_›
    · split
      · rfl
      · split
        · rfl
        · split
          · rw [ih, composerFill_tlc]
            rfl
          · rw [ih, composerFill_tlc]
            rfl
          · split
            · rfl
            · exact startRow_auth _ _
          · rw [swapPrintTables_tlc]
            rfl

theorem goOn_auth (s : State) : (goOn s).tlc.auth = s.tlc.auth := goOnFrom_auth _ s

/-- The composer and the printer hold no authorization (R107). -/
theorem composerAct_auth (s : State) : (composerAct s).tlc.auth = s.tlc.auth := by
  unfold composerAct wakePrinter
  split
  · rw [goOn_auth, composerFill_tlc]
  · rw [composerFill_tlc]

/-! ## The frame of a request whose work reaches the printer -/

theorem detail_of_works {ps : List Part} {ks : List Nat} {s t : State} (h : Works ps ks s t) (hp : Part.weighing ∉ ps) :
    s.wch.detail = t.wch.detail := by
  obtain ⟨_, _, _, hparts, _⟩ := h
  have hwch : t.wch = s.wch := hparts .weighing hp
  rw [hwch]

theorem weighing_notMem_printParts {s : State} (h : s.pen.state ≠ .idle) : Part.weighing ∉ s.printParts := by
  simp [State.printParts, h]

/-- WEIGHT changes by the work of an IDLE printer alone, where no part of its own changes the channel. -/
theorem detail_or_weight {ps : List Part} {ks : List Nat} {s t : State}
    (h : Works (ps ++ s.printParts) (ks ++ s.printKinds) s t) (hp : Part.weighing ∉ ps) :
    s.wch.detail = t.wch.detail ∨ 2 ∈ ks ++ s.printKinds := by
  by_cases hidle : s.pen.state = .idle
  · exact .inr (by simp [State.printKinds, hidle])
  · refine .inl (detail_of_works h fun hm => ?_)
    rcases List.mem_append.mp hm with hm | hm
    · exact hp hm
    · exact weighing_notMem_printParts hidle hm

/-- A request whose work ends with the composer's act. -/
theorem serves_of_printing {i : Instr} {tag : Byte} {h : State → State × Reply} {s : State} {v : Verdict}
    {fs : State → List Field} (ps : List Part) (ks : List Nat) {P : State → State → Prop} (hps : Part.weighing ∉ ps)
    (he : exec i s = request i tag h s)
    (hu : ∀ u, AtRouter i s u → ∃ x, h u = (x, ⟨v, fs u⟩) ∧ Works (ps ++ u.printParts) (ks ++ u.printKinds) u x ∧
      P u (finish s (respond ⟨tag, v, fs u, false⟩ x))) :
    Serves i tag s v fs (ps ++ s.printParts) (ks ++ s.printKinds) P := by
  refine serves_of he fun u hr => ?_
  obtain ⟨x, hx, hworks, hP⟩ := hu u hr
  have hdetail := detail_or_weight hworks hps
  rw [hr.printParts, hr.printKinds] at hworks
  rw [hr.printKinds] at hdetail
  rw [hx]
  exact ⟨rfl, hworks, hdetail, hP⟩

theorem notified_respond {s x : State} {r : Response} {n : Notice} (h : Standing x n) (hk : n.kind ≠ 2) :
    Notified (finish s (respond r x)) n := (h.of_notices (t := respond r x) rfl).finish s hk

/-! ## The next tag (R59) -/

theorem stepTag_range {t : Nat} (h : 1 ≤ t ∧ t ≤ 65535) : 1 ≤ stepTag t ∧ stepTag t ≤ 65535 := by
  unfold stepTag
  split <;> omega

theorem stepTag_iterate {t : Nat} (h : 1 ≤ t ∧ t ≤ 65535) (k : Nat) : stepTag^[k] t = (t - 1 + k) % 65535 + 1 := by
  induction k with
  | zero =>
    rw [Function.iterate_zero, id]
    omega
  | succ k ih =>
    rw [Function.iterate_succ_apply', ih, stepTag]
    split <;> omega

theorem freeTag_range {live : List Nat} (fuel : Nat) {t : Nat} (h : 1 ≤ t ∧ t ≤ 65535) :
    1 ≤ freeTag live fuel t ∧ freeTag live fuel t ≤ 65535 := by
  induction fuel generalizing t with
  | zero => exact h
  | succ fuel ih =>
    unfold freeTag
    split
    · exact ih (stepTag_range h)
    · exact h

/-- A tag that is still live when the search ends was reached over live tags alone. -/
theorem freeTag_visited {live : List Nat} (fuel : Nat) {t : Nat} (h : freeTag live fuel t ∈ live) :
    ∀ k ≤ fuel, stepTag^[k] t ∈ live := by
  induction fuel generalizing t with
  | zero =>
    intro k hk
    obtain rfl : k = 0 := by omega
    exact h
  | succ fuel ih =>
    unfold freeTag at h
    split at h
    · rename_i ht
      intro k hk
      cases k with
      | zero => exact List.contains_iff_mem.mp ht
      | succ k => exact ih h k (by omega)
    · rename_i ht
      exact absurd (List.contains_iff_mem.mpr h) ht

/-- The search of one step more than there are live tags ends at a tag that is free. -/
theorem freeTag_notMem {live : List Nat} {t : Nat} (ht : 1 ≤ t ∧ t ≤ 65535) (hl : live.length ≤ 5) :
    freeTag live (live.length + 1) t ∉ live := by
  intro h
  have hvisited := freeTag_visited _ h
  have hsub : (List.range (live.length + 1)).map (fun k => stepTag^[k] t) ⊆ live := by
    intro x hx
    obtain ⟨k, hk, rfl⟩ := List.mem_map.mp hx
    exact hvisited k (by have := List.mem_range.mp hk; omega)
  have hnodup : ((List.range (live.length + 1)).map fun k => stepTag^[k] t).Nodup := by
    refine List.Nodup.map_on (fun a ha b hb he => ?_) List.nodup_range
    have := List.mem_range.mp ha
    have := List.mem_range.mp hb
    rw [stepTag_iterate ht, stepTag_iterate ht] at he
    omega
  have hlen := (hnodup.subperm hsub).length_le
  rw [List.length_map, List.length_range] at hlen
  omega

theorem liveTags_unprinted (u : Sru) : u.unprinted.liveTags = u.liveTags := by
  unfold Sru.liveTags Sru.unprinted
  cases u.openSlot <;> cases u.closing <;> rfl

theorem kept_of_unprinted {u v : Sru} (h : u.unprinted = v.unprinted) :
    u.nextTag = v.nextTag ∧ u.stack = v.stack ∧ u.lateAnswer = v.lateAnswer := by
  have htag := congrArg Sru.nextTag h
  have hstack := congrArg Sru.stack h
  have hlate := congrArg Sru.lateAnswer h
  exact ⟨htag, hstack, hlate⟩

/-- Settles O28: the sale opened, and the drawer that is not closed. -/
theorem saleOpenTakesTheNextFreeTag : Obligations.SaleOpenTakesTheNextFreeTag := by
  unfold Obligations.SaleOpenTakesTheNextFreeTag
  refine fun tag s hlane ho => ⟨fun hdrawer => ?_, fun hclose hdrawer => ?_⟩
  · refine serves_of_printing [.sale] [] (h := saleOpen) (by decide) rfl fun u hu => ?_
    let opened := setOpen (Sale.fresh u.sru.nextTag u.tbs.item.generation) u
    let ready : State := { opened with sru := opened.sru.advanceTag }
    have hshut : ¬(u.lli.params.closeBeforeSale = true ∧ u.tlc.state ≠ .closed) := by
      rw [hu.params, hu.tlc]
      rintro ⟨hc, hs⟩
      rcases hdrawer with h | h
      · rw [h] at hc
        cases hc
      · exact hs h
    have he : saleOpen u = okay [.int 2 u.sru.nextTag] (composerAct ready) := by
      unfold saleOpen
      rw [if_neg (by rw [hu.lane]; exact not_not_intro hlane), if_neg (by rw [hu.sru, ho]; simp), if_neg hshut]
    have hready : Works [.sale] [] u ready := Works.of rfl rfl rfl rfl fun p hp => by
      cases p with
      | sale => exact absurd (List.mem_singleton_self _) hp
      | _ => rfl
    refine ⟨_, he, (hready.composed rfl rfl rfl).mono (by simp) (by simp), ?_⟩
    rw [finish_sru, respond_sru]
    have hsru : (composerAct ready).sru.unprinted = ready.sru.unprinted := composerAct_unprinted ready
    obtain ⟨htag, hstack', hlate⟩ := kept_of_unprinted hsru
    have hlive : (composerAct ready).sru.liveTags = opened.sru.liveTags := by
      rw [← liveTags_unprinted, hsru, liveTags_unprinted]
      rfl
    refine ⟨congrArg Sru.openSlot hsru, congrArg Sru.closing hsru, hstack', hlate,
      fun h1 h2 hstack => ?_⟩
    have hlength : opened.sru.liveTags.length ≤ 5 := by
      show ((some _ : Option Sale).toList ++ u.sru.closing.toList ++ u.sru.stack |>.map Sale.tag).length ≤ 5
      simp only [Option.toList_some, List.length_map, List.length_append, List.length_singleton]
      have hone : u.sru.closing.toList.length ≤ 1 := by cases u.sru.closing <;> simp
      omega
    have hstep := stepTag_range ⟨h1, h2⟩
    rw [htag, hlive]
    exact ⟨(freeTag_range _ hstep).1, (freeTag_range _ hstep).2, freeTag_notMem hstep hlength⟩
  · refine refuses_of (h := saleOpen) rfl fun u hu => ?_
    unfold saleOpen
    rw [if_neg (by rw [hu.lane]; exact not_not_intro hlane), if_neg (by rw [hu.sru, ho]; simp),
      if_pos (by rw [hu.params, hu.tlc]; exact ⟨hclose, hdrawer⟩)]

end Sys2Proof.Machine
end

section
/-! Proofs about item lines, voids and referrals (R40, R63, R65, R68, R72 to R75). -/

namespace Sys2Proof.Machine

open Sys2Proof

/-! ## Requests that write the open sale -/

section
variable {i : Instr} {tag : Byte} {h : State → State × Reply} {s : State} {fs : List Field} {o : State → Sale}

theorem serves_of_setOpen (he : exec i s = request i tag h s)
    (hu : ∀ u, AtRouter i s u → h u = okay fs (composerAct (setOpen (o u) u))) :
    Serves i tag s .ok (fun _ => fs) (.sale :: s.printParts) s.printKinds fun u t =>
      t.sru.unprinted = ({ u.sru with openSlot := some (o u) } : Sru).unprinted := by
  refine serves_of_printing [.sale] [] (by decide) he fun u hr => ⟨_, hu u hr, ?_, ?_⟩
  · exact ((setOpen_works _ u).composed rfl rfl rfl).mono (by simp) (by simp)
  · rw [finish_sru, respond_sru, composerAct_unprinted]
    rfl

theorem endReferral_works (o : Sale) (s : State) : Works ([.sale] ++ s.printParts) ([7] ++ s.printKinds) s (endReferral o s) := by
  have hraised : Works [.sale] [7] s (raiseReferral o (setOpen o s)) :=
    ((setOpen_works o s).mono (fun _ => id) (by simp)).raised (by simp [Notice.kind])
  exact (hraised.composed rfl rfl rfl).mono (by simp) (by simp)

theorem endReferral_unprinted (o : Sale) (s : State) :
    (endReferral o s).sru.unprinted = ({ s.sru with openSlot := some o } : Sru).unprinted := by
  rw [endReferral, composerAct_unprinted]
  rfl

theorem endReferral_notice (o : Sale) (s : State) : Standing (endReferral o s) (.referral o.outstanding) :=
  Standing.composerAct (standing_raise _ _) (by simp [Notice.kind]) (by simp [Notice.kind])

theorem serves_of_endReferral (he : exec i s = request i tag h s)
    (hu : ∀ u, AtRouter i s u → h u = okay fs (endReferral (o u) u)) :
    Serves i tag s .ok (fun _ => fs) (.sale :: s.printParts) (7 :: s.printKinds) fun u t =>
      t.sru.unprinted = ({ u.sru with openSlot := some (o u) } : Sru).unprinted ∧
      Notified t (.referral (o u).outstanding) := by
  refine serves_of_printing [.sale] [7] (by decide) he fun u hr => ⟨_, hu u hr, endReferral_works _ u, ?_⟩
  rw [finish_sru, respond_sru, endReferral_unprinted]
  exact ⟨rfl, notified_respond (endReferral_notice (o u) u) (by simp [Notice.kind])⟩

end

/-! ## ITEM_ADD (R68) -/

theorem outstanding_addReferral (r : ReferralReason) (s : State) (o : Sale) (l : Line) :
    (addReferral r s (o.append l)).outstanding = o.outstanding ++ [o.lines.length + 1] := by
  simp [addReferral, Sale.outstanding, Sale.append, Sale.lastNumber]

/-- The sale with a referred line, as R73 says it. -/
theorem addReferral_append (r : ReferralReason) (s : State) (o : Sale) (l : Line) :
    addReferral r s (o.append l) = { o with
      referrals := o.referrals ++ [⟨o.lines.length + 1, r, s.clock + s.lli.params.referralTimeout * 1000000⟩]
      lines := o.lines ++ [{ l with number := o.lines.length + 1 }] } := by
  simp [addReferral, Sale.append, Sale.lastNumber]

section
variable {plu q : Nat} {s : State} {o : Sale}

theorem itemAdd_open (ho : s.openSale? = some o) (h1 : 1 ≤ plu) (h2 : plu ≤ 999999) (h3 : 1 ≤ q) (h4 : q ≤ 999) :
    itemAdd plu q s =
      if (s.tbs.findItem plu).any fun e => e.basis != .each then refuse .notEach s
      else if (s.tbs.findItem plu).any fun e => !e.refer && decide (maxLineAmount < e.unitPrice * q) then refuse .limit s
      else if o.admits (itemLine (s.tbs.findItem plu) plu q).1 then
        okay (lineFields (o.lines.length + 1) (itemLine (s.tbs.findItem plu) plu q).1.state)
          (addLine o (itemLine (s.tbs.findItem plu) plu q).1 (itemLine (s.tbs.findItem plu) plu q).2 s)
      else refuse .limit s := by
  have hplu : pluInRange plu = true := by simp [pluInRange, h1, h2]
  unfold itemAdd
  rw [ho]
  dsimp only
  rw [if_neg (by simp [hplu]; omega)]

/-- A line to be referred is taken or refused LIMIT (R65, R68). -/
theorem itemAdd_refers {tag : Byte} {s : State} {l : Line} {r : ReferralReason} (ho : s.openSale? = some o)
    (h1 : 1 ≤ plu) (h2 : plu ≤ 999999) (h3 : 1 ≤ q) (h4 : q ≤ 999)
    (heach : ((s.tbs.findItem plu).any fun e => e.basis != .each) = false)
    (hprice : ((s.tbs.findItem plu).any fun e => !e.refer && decide (maxLineAmount < e.unitPrice * q)) = false)
    (hl : itemLine (s.tbs.findItem plu) plu q = (l, some r)) (hstate : l.state = .referred) :
    (o.lines.length < 200 → o.referrals.length < 4 →
      Serves (.itemAdd tag plu q) tag s .ok (fun _ => [.int 1 (o.lines.length + 1 : Nat), .enum 0])
        (.sale :: s.printParts) (7 :: s.printKinds) fun u t =>
          t.sru.unprinted = ({ u.sru with openSlot := some { o with
            referrals := o.referrals ++ [⟨o.lines.length + 1, r, u.clock + u.lli.params.referralTimeout * 1000000⟩]
            lines := o.lines ++ [{ l with number := o.lines.length + 1 }] } } : Sru).unprinted ∧
          Notified t (.referral (o.outstanding ++ [o.lines.length + 1]))) ∧
    ((200 ≤ o.lines.length ∨ 4 ≤ o.referrals.length) → Refuses (.itemAdd tag plu q) tag s .limit) := by
  have hadd {u : State} (hu : AtRouter (.itemAdd tag plu q) s u) : itemAdd plu q u =
      if o.admits l then okay (lineFields (o.lines.length + 1) .referred) (addLine o l (some r) u) else refuse .limit u := by
    rw [itemAdd_open (hu.openSale.trans ho) h1 h2 h3 h4, hu.tbs, heach, hprice, hl, hstate]
    rfl
  refine ⟨fun hlines hrefs => ?_, fun hfull => ?_⟩
  · have hserves := serves_of_endReferral (i := .itemAdd tag plu q) (tag := tag) (h := itemAdd plu q) (s := s)
      (fs := [.int 1 (o.lines.length + 1 : Nat), .enum 0]) (o := fun u => addReferral r u (o.append l)) rfl
      (fun u hu => by rw [hadd hu, if_pos ((admits_referred_iff hstate).mpr ⟨hlines, hrefs⟩)]; rfl)
    refine hserves.imp fun u t _ ⟨hsale, hnote⟩ => ?_
    rw [addReferral_append] at hsale
    rw [outstanding_addReferral] at hnote
    exact ⟨hsale, hnote⟩
  · refine refuses_of (h := itemAdd plu q) rfl fun u hu => ?_
    rw [hadd hu, if_neg]
    rw [admits_referred_iff hstate]
    omega

end

/-- Settles O29: the refusals, then the posted and the referred line. -/
theorem itemAddPostsOrRefersALine : Obligations.ItemAddPostsOrRefersALine := by
  unfold Obligations.ItemAddPostsOrRefersALine
  refine ⟨fun tag plu q s ho => ?_, fun tag plu q s o ho hrange => ?_, fun tag plu q s o ho h1 h2 h3 h4 =>
    ⟨fun e he hb href => ?_, fun e he hb href => ?_, fun hn => ?_, fun e he hb => ?_⟩⟩
  · refine refuses_of (h := itemAdd plu q) rfl fun u hu => ?_
    rw [itemAdd, hu.openSale, ho]
  · refine refuses_of (h := itemAdd plu q) rfl fun u hu => ?_
    unfold itemAdd
    rw [hu.openSale, ho]
    dsimp only
    rw [if_pos]
    simp only [pluInRange, Bool.or_eq_true, Bool.not_eq_true', Bool.and_eq_false_iff, decide_eq_false_iff_not,
      decide_eq_true_eq]
    omega
  · have heach : ((s.tbs.findItem plu).any fun e => e.basis != .each) = false := by simp [he, hb]
    have hadd {u : State} (hu : AtRouter (.itemAdd tag plu q) s u) : itemAdd plu q u =
        if maxLineAmount < e.unitPrice * q then refuse .limit u
        else if o.admits (itemLine (some e) plu q).1 then
          okay (lineFields (o.lines.length + 1) .posted) (addLine o (itemLine (some e) plu q).1 none u)
        else refuse .limit u := by
      rw [itemAdd_open (hu.openSale.trans ho) h1 h2 h3 h4, hu.tbs, heach, he]
      simp [href, itemLine, Line.plain]
    have hline : (itemLine (some e) plu q).1.state = .posted ∧ (itemLine (some e) plu q).1.amount = (e.unitPrice * q : Nat) := by
      simp [itemLine, href, Line.plain]
    refine ⟨fun hprice hlen hlow hhigh => ?_, fun h => ?_⟩
    · have hadmits : o.admits (itemLine (some e) plu q).1 = true := by
        rw [admits_posted_iff hline.1, hline.2]
        exact ⟨hlen, hlow, hhigh⟩
      refine (serves_of_addLine_posted (h := itemAdd plu q) (o := o) (l := (itemLine (some e) plu q).1) rfl
        fun u hu => ?_).imp fun u t _ ht => ?_
      · have hsmall : ¬maxLineAmount < e.unitPrice * q := Nat.not_lt.mpr hprice
        rw [hadd hu, if_neg hsmall, if_pos hadmits]
        rfl
      · rw [ht]
        simp [itemLine, href, Line.plain, Sale.append, hb]
    · refine refuses_of (h := itemAdd plu q) rfl fun u hu => ?_
      rw [hadd hu]
      by_cases hprice : maxLineAmount < e.unitPrice * q
      · rw [if_pos hprice]
      · have hsmall : e.unitPrice * q ≤ 99999999 := Nat.not_lt.mp hprice
        rw [if_neg hprice, if_neg]
        rw [admits_posted_iff hline.1, hline.2]
        omega
  · have hrefers := itemAdd_refers (tag := tag) (s := s) (r := .refer) (plu := plu) (q := q) ho h1 h2 h3 h4
      (by simp [he, hb]) (by simp [he, href]) (by rw [he, itemLine, if_pos href]) rfl
    rw [hb] at hrefers
    exact hrefers
  · exact itemAdd_refers (tag := tag) (s := s) (r := .missing) (plu := plu) (q := q) ho h1 h2 h3 h4
      (by simp [hn]) (by simp [hn]) (by rw [hn, itemLine]) rfl
  · refine refuses_of (h := itemAdd plu q) rfl fun u hu => ?_
    rw [itemAdd_open (hu.openSale.trans ho) h1 h2 h3 h4, hu.tbs, he, if_pos (by simpa using hb)]

/-! ## LINE_VOID (R72) -/

theorem line?_number {o : Sale} {n : Nat} {l : Line} (h : o.line? n = some l) : l.number = n := by
  have := List.find?_some h
  simpa using this

theorem AtRouter.tenderSale {i : Instr} {s u : State} (h : AtRouter i s u) : u.tenderSale? = s.tenderSale? := by
  rw [State.tenderSale?, State.tenderSale?, h.sru]

theorem tenderSale?_of {s : State} {o : Sale} (ho : s.sru.openSlot = some o) (hs : o.state = .opened ∨ o.state = .tendering) :
    s.tenderSale? = some o := by
  unfold State.tenderSale?
  rw [ho]
  exact if_pos hs

theorem voidPosted_eq (o : Sale) {n : Nat} {l : Line} (hl : l.number = n) :
    o.voidPosted l = { o with
      lines := (o.lines.map fun x => if x.number = n then { x with state := .voided } else x) ++
        [{ number := o.lines.length + 1, kind := .void, state := .posted, plu := none, text := [], quantity := none,
           mass := none, unitPrice := none, basis := none, amount := -l.amount, voided := some n, card := none,
           print := .notQueued }] } := by
  simp [Sale.voidPosted, Sale.append, Sale.edit, Line.plain, hl]

theorem hasKind_iff (o : Sale) (k : LineKind) : o.hasKind k = true ↔ ∃ x ∈ o.lines, x.kind = k := by
  simp [Sale.hasKind]

theorem afterCashVoid_eq (o : Sale) :
    o.afterCashVoid = { o with
      state := if o.tenderTotal = 0 ∧ ∀ x ∈ o.lines, x.kind ≠ .card then .opened else o.state } := by
  have hcard : o.hasKind .card = false ↔ ∀ x ∈ o.lines, x.kind ≠ .card := by
    rw [Bool.eq_false_iff, Ne, hasKind_iff]
    exact ⟨fun h x hx hk => h ⟨x, hx, hk⟩, fun h ⟨x, hx, hk⟩ => h x hx hk⟩
  unfold Sale.afterCashVoid
  by_cases h : o.tenderTotal = 0 ∧ ∀ x ∈ o.lines, x.kind ≠ .card
  · have hempty : o.tenderTotal = 0 ∧ (!o.hasKind .card) = true := ⟨h.1, by rw [hcard.mpr h.2]; rfl⟩
    rw [if_pos h, if_pos hempty]
  · have hheld : ¬(o.tenderTotal = 0 ∧ (!o.hasKind .card) = true) := fun ⟨h1, h2⟩ =>
      h ⟨h1, hcard.mp (by simpa using h2)⟩
    rw [if_neg h, if_neg hheld]

theorem outstanding_voidReferred (o : Sale) (n : Nat) :
    (o.voidReferred n).outstanding = o.outstanding.filter fun x => x != n := by
  simp only [Sale.voidReferred, Sale.dropReferral, Sale.edit, Sale.outstanding, List.filter_map]
  rfl

/-- Settles O31: the line found or not, and each kind of line. -/
theorem lineVoidNegatesALine : Obligations.LineVoidNegatesALine := by
  unfold Obligations.LineVoidNegatesALine
  intro tag n s o ho hs
  have hsale {u : State} (hu : AtRouter (.lineVoid tag n) s u) : u.tenderSale? = some o :=
    hu.tenderSale.trans (tenderSale?_of ho hs)
  refine ⟨fun hn => ?_, fun l hl => ?_⟩
  · refine refuses_of (h := lineVoid n) rfl fun u hu => ?_
    unfold lineVoid
    rw [hsale hu]
    dsimp only
    rw [hn]
  · intro marked
    have hnum := line?_number hl
    have hmarked : o.voidPosted l = marked := voidPosted_eq o hnum
    have hvoid {u : State} (hu : AtRouter (.lineVoid tag n) s u) : lineVoid n u = voidLine o l u := by
      unfold lineVoid
      rw [hsale hu]
      dsimp only
      rw [hl]
    refine ⟨fun hst hitem hlen hlow hhigh htend => ?_, fun hst hcash hlen => ?_, fun hst hitem => ?_, fun hno => ?_⟩
    · refine serves_of_setOpen (h := lineVoid n) (o := fun _ => marked) rfl fun u hu => ?_
      have hfits : (!o.hasRoom || !o.totalFits (-l.amount)) = false := by
        have hm : maxItemTotal = 999999999 := rfl
        simp only [Sale.hasRoom, Sale.totalFits, hm, Bool.or_eq_false_iff, Bool.not_eq_false', Bool.and_eq_true,
          decide_eq_true_eq]
        omega
      have hbalance : ¬(o.state = .tendering ∧ o.balance - l.amount < 0) := fun ⟨ht, hneg⟩ => by
        have := htend ht
        omega
      rw [hvoid hu, voidLine, hst]
      dsimp only
      rw [if_pos hitem, hfits, if_neg Bool.false_ne_true, if_neg hbalance, hmarked]
    · have hitem : ¬l.kind.isItem = true := by rw [hcash]; decide
      have hroom : ¬(!o.hasRoom) = true := by simp [Sale.hasRoom, hlen]
      rw [← afterCashVoid_eq]
      refine serves_of_setOpen (h := lineVoid n) (o := fun _ => marked.afterCashVoid) rfl fun u hu => ?_
      rw [hvoid hu, voidLine, hst]
      dsimp only
      rw [if_neg hitem, if_pos hcash, if_neg hroom, hmarked]
    · refine (serves_of_endReferral (h := lineVoid n) (o := fun _ => o.voidReferred n) rfl fun u hu => ?_).imp
        fun u t _ ⟨hsru, hnote⟩ => ⟨hsru, ?_⟩
      · rw [hvoid hu, voidLine, hst]
        dsimp only
        rw [if_pos hitem, hnum]
        rfl
      · rw [outstanding_voidReferred] at hnote
        exact hnote
    · refine refuses_of (h := lineVoid n) rfl fun u hu => ?_
      rw [hvoid hu, voidLine]
      rcases hno with hst | hk | hk
      · rw [hst]
      · cases hst : l.state <;> simp [hk, LineKind.isItem]
      · cases hst : l.state <;> simp [hk, LineKind.isItem]

/-! ## Answers to referrals (R40, R74, R75) -/

theorem referred?_none {o : Sale} {n : Nat} (h : n ∉ o.outstanding) : o.referred? n = none := by
  simp [Sale.referred?, h]

theorem referred?_some {o : Sale} {n : Nat} {l : Line} (h : n ∈ o.outstanding) (hl : o.line? n = some l) :
    o.referred? n = some l := by
  simp [Sale.referred?, h, hl]

/-- An acceptance whose price is taken (R74). -/
theorem serves_of_acceptance {s : State} {n : Nat} {o : Sale} {tag : Byte} {p : ReferralPrice} {l : Line} {a : Int}
    {f : Line → Line} (ho : s.sru.openSlot = some o) (hs : o.state = .opened ∨ o.state = .tendering)
    (hout : n ∈ o.outstanding) (hl : o.line? n = some l) (hp : answerPrice l p = .ok (a, f)) (hlow : 0 ≤ o.itemTotal + a)
    (hhigh : o.itemTotal + a ≤ 999999999) :
    Serves (.referralAnswerAccept tag n p) tag s .ok (fun _ => []) (.sale :: s.printParts) (7 :: s.printKinds) fun u t =>
      t.sru.unprinted = ({ u.sru with openSlot := some (o.postReferred n f a) } : Sru).unprinted ∧
      Notified t (.referral ((o.referrals.filter fun x => x.line != n).map Referral.line)) := by
  refine serves_of_endReferral (h := referralAccept n p) (o := fun _ => o.postReferred n f a) rfl fun u hu => ?_
  have hfits : o.totalFits a = true := by
    have hm : maxItemTotal = 999999999 := rfl
    simp only [Sale.totalFits, hm, Bool.and_eq_true, decide_eq_true_eq]
    omega
  rw [referralAccept, hu.tenderSale, tenderSale?_of ho hs]
  dsimp only
  rw [referred?_some hout hl]
  dsimp only
  rw [hp]
  dsimp only
  rw [if_pos hfits]

/-- Settles O32: the timer, the rejection and the two acceptances. -/
theorem referralsAreAnsweredOrVoided : Obligations.ReferralsAreAnsweredOrVoided := by
  unfold Obligations.ReferralsAreAnsweredOrVoided
  intro s n o ho rest voided
  have hvoided : o.voidReferred n = voided := rfl
  refine ⟨fun r hr => ?_, fun hs tag => ⟨fun hout => ⟨?_, fun p => ?_⟩, fun l hout hl => ⟨?_,
    fun m b price₁ unit hk hm hb hu hprice hmax hlow hhigh => ?_, fun a hk ha hlow hhigh => ?_⟩⟩⟩
  · have he : referralExpires n s = endReferral voided (reach r.due s) := by
      rw [referralExpires, ho]
      dsimp only
      rw [hr, hvoided]
    have hworks : Works ([.clock, .sale] ++ s.printParts) ([7] ++ s.printKinds) s (endReferral voided (reach r.due s)) :=
      ((reach_works r.due s).mono (by simp) (by simp)).trans
        ((endReferral_works voided (reach r.due s)).mono (fun p hp => List.mem_cons_of_mem _ hp) (fun _ => id))
    have hclock : (endReferral voided (reach r.due s)).clock = max s.clock r.due := by
      obtain ⟨_, _, _, hparts, _⟩ := endReferral_works voided (reach r.due s)
      refine hparts .clock ?_
      have hsub := printParts_sub (reach r.due s)
      simp only [List.mem_append, List.mem_singleton, not_or]
      refine ⟨by decide, fun hmem => ?_⟩
      have := hsub _ hmem
      simp at this
    refine does_of (f := referralExpires n) rfl ?_ ?_ ?_ <;> rw [he]
    · exact hworks
    · exact detail_or_weight hworks (by decide)
    · rw [finish_clock, finish_sru, endReferral_unprinted]
      exact ⟨hclock, rfl, (endReferral_notice voided _).finish s (by simp [Notice.kind])⟩
  · refine refuses_of (h := referralReject n) rfl fun u hu => ?_
    rw [referralReject, hu.tenderSale, tenderSale?_of ho hs]
    dsimp only
    rw [referred?_none hout]
  · refine refuses_of (h := referralAccept n p) rfl fun u hu => ?_
    rw [referralAccept, hu.tenderSale, tenderSale?_of ho hs]
    dsimp only
    rw [referred?_none hout]
  · refine (serves_of_endReferral (h := referralReject n) (o := fun _ => voided) rfl fun u hu => ?_)
    rw [referralReject, hu.tenderSale, tenderSale?_of ho hs]
    dsimp only
    rw [referred?_some hout hl, hvoided]
  · have hprice' : answerPrice l (.unitPrice unit) =
        .ok ((price₁ : Int), fun x => { x with unitPrice := some unit, basis := some b }) := by
      have hlimit : ¬maxLineAmount < price m.certified unit b := by
        rw [← hprice]
        exact Nat.not_lt.mpr hmax
      have hunit : ¬999999 < unit := Nat.not_lt.mpr hu
      simp only [answerPrice, hk, hm, hb, Option.getD_some, Option.map_some, if_neg hunit, if_neg hlimit, hprice]
    exact serves_of_acceptance ho hs hout hl hprice' hlow hhigh
  · have hprice' : answerPrice l (.amount a) = .ok (a, id) := by
      unfold answerPrice
      split
      · contradiction
      · contradiction
      · rename_i h _
        cases h
      · rename_i h _
        cases h
        rw [if_pos (lineAmountFits_iff.mpr ha)]
    exact serves_of_acceptance ho hs hout hl hprice' hlow hhigh

end Sys2Proof.Machine
end

section
/-! Proofs about tenders and settlement (R67, R76 to R80, R84, R101, R104). -/

namespace Sys2Proof.Machine

open Sys2Proof

/-! ## What the composer, the closing slot and a sale that leaves OPEN keep -/

/-- The composer and the printer leave every part but the sale, the printer, what a grant changes, and the tables. -/
theorem composerAct_part {p : Part} (s : State) (hp : p ∉ [Part.sale, .printer, .budget, .till, .weighing, .tables]) :
    exactPart s (composerAct s) p := by
  refine (composerAct_works s).part fun hm => hp ?_
  rcases List.mem_cons.mp hm with rfl | hm
  · simp
  · have := printParts_sub s p hm
    simp only [List.mem_cons, List.not_mem_nil, or_false] at this ⊢
    tauto

theorem composerAct_acp (s : State) : (composerAct s).acp = s.acp := composerAct_part (p := .accessory) s (by decide)

theorem composerAct_sdc (s : State) : (composerAct s).sdc = s.sdc := composerAct_part (p := .stripe) s (by decide)

theorem composerAct_sst (s : State) : (composerAct s).sst = s.sst := composerAct_part (p := .store) s (by decide)

theorem composerAct_clock (s : State) : (composerAct s).clock = s.clock := composerAct_part (p := .clock) s (by decide)

theorem enterClosing_part {p : Part} (s : State) (hp : p ∉ [Part.sale, .tables]) : exactPart s (enterClosing s) p := by
  exact (enterClosing_works s).part hp

theorem Standing.enterClosing {s : State} {n : Notice} (h : Standing s n) (hk : n.kind ≠ 13) : Standing (enterClosing s) n := by
  unfold Machine.enterClosing
  split
  · split
    · refine Standing.swapSlotTables ?_ hk
      exact h.of_notices rfl
    · exact h
  · exact h

theorem leftOpen_works (s : State) : Works [.weighing, .accessory] [3, 14] s (leftOpen s) :=
  ((endCapture_works _ s).mono (by simp) (by simp)).trans ((discardHeld_works _).mono (by simp) (by simp))

theorem leftOpen_of_empty {s : State} (h : s.wch.capture = none) : leftOpen s = discardHeld s := by
  rw [leftOpen, endCapture_none h]

theorem leftOpen_held (s : State) : (leftOpen s).acp.held = none := discardHeld_held _

theorem reportLeft_opened {o : Sale} (h : o.state = .opened) (s : State) : reportLeft o s = leftOpen s := if_pos h

theorem reportLeft_works (o : Sale) (s : State) : Works [.weighing, .accessory] [3, 14] s (reportLeft o s) := by
  unfold reportLeft
  split
  · exact leftOpen_works s
  · exact Works.refl _ _ s

/-- With no capture waiting the sale's leaving OPEN reaches the held read alone (R67, R167). -/
theorem reportLeft_of_empty {s : State} (o : Sale) (h : s.wch.capture = none) :
    Works [.accessory] [14] s (reportLeft o s) := by
  unfold reportLeft
  split
  · rw [leftOpen_of_empty h]
    exact discardHeld_works s
  · exact Works.refl _ _ s

theorem reportLeft_part {p : Part} (o : Sale) (s : State) (hp : p ∉ [Part.weighing, .accessory]) :
    exactPart s (reportLeft o s) p := by
  exact (reportLeft_works o s).part hp

/-! ## Settlement (R84) -/

theorem requestTotals_sst {s : State} (hlive : s.sst.state ≠ .fault) :
    (requestTotals s).sst =
      if s.sst.inFlight = none ∧ s.pbu.warning = false then
        { s.sst with
          pendingTotals := false
          inFlight := some ⟨.totals s.sst.image.saleCounter s.sst.image.grandTotal, s.clock + 50000⟩ }
      else { s.sst with pendingTotals := true } := by
  rw [requestTotals, if_neg hlive]
  by_cases hidle : s.sst.inFlight = none ∧ s.pbu.warning = false
  · obtain ⟨hin, hw⟩ := hidle
    simp [hin, hw, startTotals, startWrite]
  · have hbusy : ¬(s.sst.inFlight.isNone && !s.pbu.warning) = true := by
      rw [Bool.and_eq_true, Bool.not_eq_true', Option.isNone_iff_eq_none]
      exact hidle
    rw [if_neg hbusy, if_neg hidle]

theorem countSale_sst (n : Nat) (s : State) :
    (countSale n s).sst =
      match s.sst.state with
      | .damaged => s.sst
      | .intact =>
        if s.sst.inFlight = none ∧ s.pbu.warning = false then
          { s.sst with
            image := s.sst.image.count n, pendingTotals := false
            inFlight := some ⟨.totals (s.sst.image.count n).saleCounter (s.sst.image.count n).grandTotal, s.clock + 50000⟩ }
        else { s.sst with image := s.sst.image.count n, pendingTotals := true }
      | .fault => { s.sst with image := s.sst.image.count n } := by
  unfold countSale
  cases hs : s.sst.state with
  | damaged => rfl
  | intact =>
    have hlive : s.sst.state ≠ .fault := by
      rw [hs]
      decide
    exact requestTotals_sst (s := { s with sst := { s.sst with image := s.sst.image.count n } }) hlive
  | fault => rfl

theorem issueAuth_part {p : Part} (a : Auth) (s : State) (hp : p ∉ [Part.budget, .till, .weighing, .printer]) :
    exactPart s (issueAuth a s) p := by
  exact (issueAuth_works a s).part hp

/-- The state in which a settlement issues its authorization: the figures counted, the sale SETTLED in the open slot. -/
def countedSale (o : Sale) (x : State) : State :=
  setOpen { o with state := .settled, saleNumber := x.sst.nextNumber o.itemTotal.toNat } (countSale o.itemTotal.toNat x)

/-- The authorization of a settlement with posted cash (R84). -/
def issueForCash (o : Sale) (x : State) : State :=
  if o.lines.any fun l => l.kind == .cash && l.state == .posted then issueAuth (.settledCash o.tag) x else x

theorem issueForCash_part {p : Part} (o : Sale) (s : State) (hp : p ∉ [Part.budget, .till, .weighing, .printer]) :
    exactPart s (issueForCash o s) p := by
  unfold issueForCash
  split
  · exact issueAuth_part _ s hp
  · cases p <;> rfl

theorem settle_eq_countedSale (o : Sale) (x : State) :
    settle o x = composerAct (enterClosing (raiseSale { o with state := .settled, saleNumber := x.sst.nextNumber o.itemTotal.toNat }
      (.live .settled) (issueForCash o (countedSale o x)))) := rfl

theorem countedSale_part {p : Part} (o : Sale) (x : State) (hp : p ∉ [Part.store, .sale]) : exactPart x (countedSale o x) p := by
  have hworks := ((countSale_works o.itemTotal.toNat x).mono (qs := [.store, .sale]) (js := []) (by simp) (by simp)).trans
    ((setOpen_works { o with state := .settled, saleNumber := x.sst.nextNumber o.itemTotal.toNat } _).mono (by simp) (by simp))
  exact hworks.part hp

theorem countSale_sru (n : Nat) (x : State) : (countSale n x).sru = x.sru := by
  exact (countSale_works n x).part (p := .sale) (by decide)

/-- A settlement leaves what R84 says; the state it starts from may differ from the request's in the open sale and the held
read. -/
theorem settle_settledAs {s u x : State} (o : Sale) (r : Response) (hsru : ∃ y, x.sru = { u.sru with openSlot := y })
    (hsst : x.sst = u.sst) (htlc : x.tlc = u.tlc) (hpbu : x.pbu = u.pbu) (hclock : x.clock = u.clock) :
    SettledAs o u (finish s (respond r (settle o x))) := by
  obtain ⟨y, hy⟩ := hsru
  let settled : Sale := { o with state := .settled, saleNumber := x.sst.nextNumber o.itemTotal.toNat }
  have hissuedSru : (issueForCash o (countedSale o x)).sru = { u.sru with openSlot := some settled } := by
    have hi : (issueForCash o (countedSale o x)).sru = (countedSale o x).sru := issueForCash_part (p := .sale) o _ (by decide)
    rw [hi]
    show { (countSale o.itemTotal.toNat x).sru with openSlot := some settled } = _
    rw [countSale_sru, hy]
  have hfinalSst : (settle o x).sst = (countSale o.itemTotal.toNat x).sst := by
    rw [settle_eq_countedSale, composerAct_sst]
    have he : (enterClosing (raiseSale settled (.live .settled) (issueForCash o (countedSale o x)))).sst = _ :=
      enterClosing_part (p := .store) _ (by decide)
    have hi : (issueForCash o (countedSale o x)).sst = (countedSale o x).sst := issueForCash_part (p := .store) o _ (by decide)
    exact he.trans hi
  have hfinalAuth : (settle o x).tlc.auth = (issueForCash o (countedSale o x)).tlc.auth := by
    rw [settle_eq_countedSale, composerAct_auth]
    have he : (enterClosing (raiseSale settled (.live .settled) (issueForCash o (countedSale o x)))).tlc = _ :=
      enterClosing_part (p := .till) _ (by decide)
    rw [he]
    rfl
  have hcountedTlc : (countedSale o x).tlc = u.tlc := (countedSale_part (p := .till) o x (by decide)).trans htlc
  have hsst' := countSale_sst o.itemTotal.toNat x
  rw [← hfinalSst, hsst, hpbu, hclock] at hsst'
  unfold SettledAs
  intro number settled' counted cash
  have hsettled : settled' = settled := by
    show ({ o with state := .settled, saleNumber := _ } : Sale) = { o with state := .settled, saleNumber := _ }
    rw [Sst.nextNumber, hsst]
    rfl
  rw [finish_sru, finish_sst, finish_tlc, respond_sru, respond_sst, respond_tlc]
  refine ⟨?_, fun hi => ?_, fun hf => ?_, fun hd => ?_, ?_, fun hcash hstate hauth => ?_, fun hcash => ?_⟩
  · rw [hsettled, settle_eq_countedSale, composerAct_unprinted, enterClosing_sru]
    show (issueForCash o (countedSale o x)).sru.entered.unprinted = _
    rw [hissuedSru]
    unfold Sru.entered
    cases hc : u.sru.closing with
    | none => rfl
    | some c => rfl
  · rw [hi] at hsst'
    exact hsst'
  · rw [hf] at hsst'
    exact hsst'
  · rw [hd] at hsst'
    exact hsst'
  · refine notified_respond ?_ (by simp [Notice.kind])
    rw [settle_eq_countedSale]
    refine Standing.composerAct (Standing.enterClosing ?_ (by simp [Notice.kind])) (by simp [Notice.kind]) (by simp [Notice.kind])
    exact standing_raise _ _
  · rw [hfinalAuth, issueForCash, if_pos hcash, issueAuth_auth, hcountedTlc, if_pos ⟨hstate, hauth⟩]
  · rw [hfinalAuth, issueForCash, if_neg (by rw [show (o.lines.any _) = false from hcash]; exact Bool.false_ne_true), hcountedTlc]

end Sys2Proof.Machine
end

section
/-! Proofs about the tenders' requests and the authorization timer (R76 to R80, R101, R104). -/

namespace Sys2Proof.Machine

open Sys2Proof

/-! ## The checks that both tenders begin with (R76, R77) -/

section
variable {o : Sale} {amount : Nat} {s : State}

theorem tenderRefusal_range (h : amount < 1 ∨ 999999999 < amount) : tenderRefusal o amount s = some .range := if_pos h

theorem tenderRefusal_state (h1 : 1 ≤ amount) (h2 : amount ≤ 999999999) (h : o.referrals ≠ [] ∨ s.wch.capture ≠ none) :
    tenderRefusal o amount s = some .state := by
  have hrange : ¬(amount < 1 ∨ maxItemTotal < amount) := by
    have : maxItemTotal = 999999999 := rfl
    omega
  unfold tenderRefusal
  rw [if_neg hrange]
  by_cases href : o.referrals = []
  · have hc : s.wch.capture.isSome = true := Option.isSome_iff_ne_none.mpr (h.resolve_left fun hn => hn href)
    rw [if_neg (by simp [href]), if_pos hc]
  · rw [if_pos (by simpa using href)]

theorem tenderRefusal_none (h1 : 1 ≤ amount) (h2 : amount ≤ 999999999) (hr : o.referrals = []) (hc : s.wch.capture = none) :
    tenderRefusal o amount s = none := by
  have hrange : ¬(amount < 1 ∨ maxItemTotal < amount) := by
    have : maxItemTotal = 999999999 := rfl
    omega
  unfold tenderRefusal
  rw [if_neg hrange, if_neg (by simp [hr]), if_neg (by simp [hc])]

end

/-! ## TENDER_CASH (R76) -/

/-- The sale in TENDERING in the open slot, once WCH and ACP have heard that it left OPEN (R67). -/
def tendered (o paid : Sale) (u : State) : State := reportLeft o (setOpen paid u)

section
variable (o paid : Sale) {u : State}

theorem tendered_works (h : u.wch.capture = none) : Works [.sale, .accessory] [14] u (tendered o paid u) :=
  ((setOpen_works paid u).mono (by simp) (by simp)).trans
    ((reportLeft_of_empty (s := setOpen paid u) o h).mono (by simp) (by simp))

theorem tendered_part {p : Part} (hp : p ∉ [Part.weighing, .accessory]) : exactPart (setOpen paid u) (tendered o paid u) p :=
  reportLeft_part o _ hp

theorem tendered_sru : (tendered o paid u).sru = { u.sru with openSlot := some paid } := by
  have h : (tendered o paid u).sru = (setOpen paid u).sru := tendered_part (p := .sale) o paid (by decide)
  rw [h]
  rfl

theorem tendered_held (h : o.state = .opened) : (tendered o paid u).acp.held = none := by
  rw [tendered, reportLeft_opened h]
  exact leftOpen_held _

end

/-- Settles O33: the refusals, the tender that leaves a balance, and the one that settles. -/
theorem cashTenderAppendsALineOrSettles : Obligations.CashTenderAppendsALineOrSettles := by
  unfold Obligations.CashTenderAppendsALineOrSettles
  intro tag amount s o ho hs
  have hsale {u : State} (hu : AtRouter (.tenderCash tag amount) s u) : u.tenderSale? = some o :=
    hu.tenderSale.trans (tenderSale?_of ho hs)
  have hrefuse {u : State} {r : Reason} (hu : AtRouter (.tenderCash tag amount) s u)
      (hr : tenderRefusal o amount u = some r) : tenderCash amount u = refuse r u := by
    unfold tenderCash
    rw [hsale hu]
    dsimp only
    rw [hr]
  refine ⟨fun h => ?_, fun h1 h2 h => ?_, fun h1 h2 href hcap hlen => ?_⟩
  · exact refuses_of (h := tenderCash amount) rfl fun u hu => hrefuse hu (tenderRefusal_range h)
  · exact refuses_of (h := tenderCash amount) rfl fun u hu =>
      hrefuse hu (tenderRefusal_state h1 h2 (by rw [hu.wch]; exact h))
  · intro paid
    have hpaid : o.withCash amount = paid := rfl
    have hlast : paid.lastNumber = o.lines.length + 1 := by
      show (o.lines ++ [_]).length = _
      rw [List.length_append, List.length_singleton]
    have htaken {u : State} (hu : AtRouter (.tenderCash tag amount) s u) : tenderCash amount u =
        okay ([.int 1 (o.lines.length + 1 : Nat)] ++
            (if paid.balance ≤ 0 then [.enum SaleState.settled.code, .int 4 (-paid.balance)]
             else [.enum SaleState.tendering.code, .int 4 paid.balance]))
          (afterTender paid (-paid.balance) (tendered o paid u)) := by
      have hroom : ¬(!o.hasRoom) = true := by simp [Sale.hasRoom, hlen]
      unfold tenderCash
      rw [hsale hu]
      dsimp only
      rw [tenderRefusal_none h1 h2 href (by rw [hu.wch]; exact hcap)]
      dsimp only
      rw [if_neg hroom, hpaid, hlast]
      rfl
    have hempty {u : State} (hu : AtRouter (.tenderCash tag amount) s u) : u.wch.capture = none := by rw [hu.wch, hcap]
    refine ⟨fun hdue => ?_, fun hdue => ?_⟩
    · have hdue' : ¬paid.balance ≤ 0 := by omega
      refine serves_of_printing [.sale, .accessory] [14] (h := tenderCash amount) (by decide) rfl fun u hu =>
        ⟨composerAct (setOpen paid (tendered o paid u)), ?_, ?_, ?_⟩
      · rw [htaken hu, afterTender, if_neg hdue', if_neg hdue']
        rfl
      · have hworks : Works [.sale, .accessory] [14] u (setOpen paid (tendered o paid u)) :=
          (tendered_works o paid (hempty hu)).trans ((setOpen_works paid _).mono (by simp) (by simp))
        refine (hworks.composed ?_ ?_ ?_).mono (by simp) (by simp)
        · exact tendered_part (p := .printer) o paid (by decide)
        · exact tendered_part (p := .budget) o paid (by decide)
        · exact tendered_part (p := .tables) o paid (by decide)
      · rw [finish_sru, respond_sru, composerAct_unprinted, finish_respond_acp, composerAct_acp]
        refine ⟨?_, fun hopen => tendered_held o paid hopen⟩
        show ({ (tendered o paid u).sru with openSlot := some paid } : Sru).unprinted = _
        rw [tendered_sru]
    · refine serves_of (h := tenderCash amount) rfl fun u hu => ?_
      have hrun : tenderCash amount u = okay [.int 1 (o.lines.length + 1 : Nat), .enum SaleState.settled.code,
          .int 4 (-paid.balance)] (settle { paid with changeDue := -paid.balance } (tendered o paid u)) := by
        rw [htaken hu, afterTender, if_pos hdue, if_pos hdue]
        rfl
      rw [hrun]
      refine ⟨rfl, ?_, .inr (by simp), ?_, ?_, ?_⟩
      · exact ((tendered_works o paid (hempty hu)).mono (by simp [closingParts]) (by simp)).trans
          ((settle_works _ _).mono (by simp [closingParts]) (by simp))
      · exact settle_settledAs _ _ ⟨some paid, tendered_sru o paid⟩ (tendered_part (p := .store) o paid (by decide))
          (tendered_part (p := .till) o paid (by decide)) (tendered_part (p := .budget) o paid (by decide))
          (tendered_part (p := .clock) o paid (by decide))
      · rw [finish_sdc, respond_sdc]
        have hsettled : (settle { paid with changeDue := -paid.balance } (tendered o paid u)).sdc = _ :=
          (settle_works _ _).part (p := .stripe) (by decide)
        exact hsettled.trans (tendered_part (p := .stripe) o paid (by decide))
      · intro hopen
        rw [finish_respond_acp]
        have hsettled : (settle { paid with changeDue := -paid.balance } (tendered o paid u)).acp = _ :=
          (settle_works _ _).part (p := .accessory) (by decide)
        show (settle { paid with changeDue := -paid.balance } (tendered o paid u)).acp.held = none
        rw [hsettled]
        exact tendered_held o paid hopen

/-! ## TENDER_CARD (R77, R101) -/

/-- Settles O34: the record bound, no record to bind, and too high an amount. -/
theorem cardTenderWaitsAndBindsTheRecord : Obligations.CardTenderWaitsAndBindsTheRecord := by
  unfold Obligations.CardTenderWaitsAndBindsTheRecord
  intro tag amount serial s o ho hs h1 h2 href hcap
  have hchecked {u : State} (hu : AtRouter (.tenderCard tag amount serial) s u) : tenderCard amount serial u =
      match u.sdc.slot.tenderable serial with
      | none => refuse .noCard u
      | some r =>
        if o.balance < amount then refuse .limit u
        else if !o.hasRoom then refuse .limit u
        else
          let waiting := { o with
            state := .authWait
            cardTender := some ⟨amount, serial, u.clock + u.lli.params.authTimeout * 1000000⟩ }
          let t := setOpen waiting u
          accept (reportLeft o { t with
            sru := { t.sru with lateAnswer := false }
            sdc := { t.sdc with slot := .bound r } }) := by
    unfold tenderCard
    rw [hu.tenderSale, tenderSale?_of ho hs]
    dsimp only
    rw [tenderRefusal_none h1 h2 href (by rw [hu.wch]; exact hcap)] <;> rfl
  refine ⟨fun r due hslot hser htrack hacc hbal hlen => ?_, fun hno => ?_, fun r due hslot hser htrack hacc hbal => ?_⟩
  · refine serves_of (h := tenderCard amount serial) rfl fun u hu => ?_
    have htenderable : u.sdc.slot.tenderable serial = some r := by
      rw [hu.sdc, hslot]
      exact if_pos ⟨hser, htrack, Option.isSome_iff_ne_none.mpr hacc⟩
    let bound : State := { u with
      sru := { u.sru with
        lateAnswer := false
        openSlot := some { o with
          state := .authWait
          cardTender := some ⟨amount, serial, u.clock + u.lli.params.authTimeout * 1000000⟩ } }
      sdc := { u.sdc with slot := .bound r } }
    have hrun : tenderCard amount serial u = accept (reportLeft o bound) := by
      rw [hchecked hu, htenderable]
      dsimp only
      rw [if_neg (by omega), if_neg (by simp [Sale.hasRoom, hlen])]
      rfl
    have hbound : Works [.sale, .stripe] [] u bound := Works.of rfl rfl rfl rfl fun p hp => by
      cases p with
      | sale => exact absurd (by simp) hp
      | stripe => exact absurd (by simp) hp
      | _ => rfl
    have hworks : Works [.sale, .stripe, .accessory] [14] u (reportLeft o bound) :=
      (hbound.mono (by simp) (by simp)).trans
        ((reportLeft_of_empty (s := bound) o (by show u.wch.capture = none; rw [hu.wch, hcap])).mono (by simp) (by simp))
    rw [hrun]
    refine ⟨rfl, hworks, .inl (detail_of_works hworks (by decide)), ?_, ?_, ?_⟩
    · rw [finish_sru, respond_sru]
      exact reportLeft_part (p := .sale) o bound (by decide)
    · rw [finish_sdc, respond_sdc]
      exact reportLeft_part (p := .stripe) o bound (by decide)
    · intro hopen
      rw [finish_respond_acp]
      show (reportLeft o bound).acp.held = none
      rw [reportLeft_opened hopen]
      exact leftOpen_held bound
  · refine refuses_of (h := tenderCard amount serial) rfl fun u hu => ?_
    have htenderable : u.sdc.slot.tenderable serial = none := by
      rw [hu.sdc]
      unfold CardSlot.tenderable
      split
      · rename_i r due hslot
        rw [if_neg]
        rintro ⟨hser, htrack, hacc⟩
        rcases hno r due hslot with h | h | h
        · exact h hser
        · exact h htrack
        · rw [h] at hacc
          cases hacc
      · rfl
      · rfl
    rw [hchecked hu, htenderable]
  · refine refuses_of (h := tenderCard amount serial) rfl fun u hu => ?_
    have htenderable : u.sdc.slot.tenderable serial = some r := by
      rw [hu.sdc, hslot]
      exact if_pos ⟨hser, htrack, Option.isSome_iff_ne_none.mpr hacc⟩
    rw [hchecked hu, htenderable]
    exact if_pos hbal

/-! ## The answers of the authorization (R78 to R80) -/

section
variable {i : Instr} {s u : State} {o : Sale} {c : CardTender}

theorem authSale?_of (ho : s.sru.openSlot = some o) (hs : o.state = .authWait) (hc : o.cardTender = some c) :
    s.authSale? = some (o, c) := by
  unfold State.authSale?
  rw [ho]
  dsimp only
  rw [if_pos hs, hc]
  rfl

theorem authSale?_none (h : ∀ o, s.sru.openSlot = some o → o.state ≠ .authWait ∨ o.cardTender = none) :
    s.authSale? = none := by
  unfold State.authSale?
  cases ho : s.sru.openSlot with
  | none => rfl
  | some o =>
    by_cases hs : o.state = .authWait
    · have hc : o.cardTender = none := (h o ho).resolve_left fun hn => hn hs
      simp [hs, hc]
    · simp [hs]

theorem AtRouter.authSale (h : AtRouter i s u) : u.authSale? = s.authSale? := by
  rw [State.authSale?, State.authSale?, h.sru]

theorem declined_eq (o : Sale) :
    o.declined = { o with
      cardTender := none
      state := if ∃ x ∈ o.lines, x.kind = .cash ∨ x.kind = .card then .tendering else .opened } := by
  have hiff : (o.hasKind .cash || o.hasKind .card) = true ↔ ∃ x ∈ o.lines, x.kind = .cash ∨ x.kind = .card := by
    rw [Bool.or_eq_true, hasKind_iff, hasKind_iff]
    exact ⟨fun h => h.elim (fun ⟨x, hx, hk⟩ => ⟨x, hx, .inl hk⟩) fun ⟨x, hx, hk⟩ => ⟨x, hx, .inr hk⟩,
      fun ⟨x, hx, hk⟩ => hk.imp (fun hk => ⟨x, hx, hk⟩) fun hk => ⟨x, hx, hk⟩⟩
  unfold Sale.declined
  by_cases h : ∃ x ∈ o.lines, x.kind = .cash ∨ x.kind = .card
  · rw [if_pos h, if_pos (hiff.mpr h)]
  · rw [if_neg h, if_neg fun hn => h (hiff.mp hn)]

theorem declineCard_sdc (o : Sale) (s : State) : (declineCard o s).sdc = { s.sdc with slot := .empty } := by
  rw [declineCard, composerAct_sdc]
  rfl

end

/-- Settles O35: the approval, the refusals, the decline and the timer; then the answers that come too late. -/
theorem cardAnswersApproveDeclineOrTimeOut : Obligations.CardAnswersApproveDeclineOrTimeOut := by
  unfold Obligations.CardAnswersApproveDeclineOrTimeOut
  refine ⟨fun s o c ho hs hc => ?_, fun tag code s hno => ⟨?_, ?_⟩⟩
  · intro back
    have hback : o.declined = back := declined_eq o
    have hauth := authSale?_of ho hs hc
    refine ⟨fun tag code r a hslot hacc h1 h2 => ?_, fun tag code hlen => ?_, fun tag => ?_, ?_⟩
    · intro paid
      have hrun {u : State} (hu : AtRouter (.cardApprove tag code) s u) : cardApprove code u =
          okay [.int 1 (o.lines.length + 1 : Nat),
              .enum (if paid.balance ≤ 0 then SaleState.settled.code else SaleState.tendering.code)]
            (afterTender paid 0 (clearCard (setOpen paid u))) := by
        have hline : o.approved (cardLine c code u) = paid := by
          have hcard := cardLine_card_of_bound (c := c) (code := code) (s := u) (hu.sdc ▸ hslot) hacc
          rw [hu.params] at hcard
          simp only [Sale.approved, Sale.append, paid]
          rw [hcard]
          rfl
        have hlast : paid.lastNumber = o.lines.length + 1 := by
          show (o.lines ++ [_]).length = _
          rw [List.length_append, List.length_singleton]
        unfold cardApprove
        rw [hu.authSale, hauth]
        dsimp only
        rw [if_neg (by omega), hline, hlast]
      refine ⟨fun hdue => ?_, fun hdue => ?_⟩
      · have hdue' : ¬paid.balance ≤ 0 := by omega
        refine serves_of_printing [.sale, .stripe] [] (h := cardApprove code) (by decide) rfl fun u hu =>
          ⟨composerAct (setOpen paid (clearCard (setOpen paid u))), ?_, ?_, ?_⟩
        · rw [hrun hu, afterTender, if_neg hdue', if_neg hdue']
          rfl
        · have hworks : Works [.sale, .stripe] [] u (setOpen paid (clearCard (setOpen paid u))) :=
            ((setOpen_works paid u).mono (by simp) (by simp)).trans
              (((clearCard_works _).mono (by simp) (by simp)).trans ((setOpen_works paid _).mono (by simp) (by simp)))
          exact (hworks.composed rfl rfl rfl).mono (by simp) (by simp)
        · rw [finish_sru, respond_sru, composerAct_unprinted, finish_sdc, respond_sdc, composerAct_sdc]
          exact ⟨rfl, rfl⟩
      · refine serves_of (h := cardApprove code) rfl fun u hu => ?_
        have hworks := settle_works { paid with changeDue := 0 } (clearCard (setOpen paid u))
        have hsdc : (settle { paid with changeDue := 0 } (clearCard (setOpen paid u))).sdc = _ :=
          hworks.part (p := .stripe) (by decide)
        have hacp : (settle { paid with changeDue := 0 } (clearCard (setOpen paid u))).acp = _ :=
          hworks.part (p := .accessory) (by decide)
        have hsettle : cardApprove code u = okay [.int 1 (o.lines.length + 1 : Nat), .enum SaleState.settled.code]
            (settle { paid with changeDue := 0 } (clearCard (setOpen paid u))) := by
          rw [hrun hu, afterTender, if_pos hdue, if_pos hdue]
        rw [hsettle]
        refine ⟨rfl, ?_, .inr (by simp), settle_settledAs _ _ ⟨some paid, rfl⟩ rfl rfl rfl rfl, ?_, ?_⟩
        · exact ((setOpen_works paid u).mono (by simp [closingParts]) (by simp)).trans
            (((clearCard_works _).mono (by simp [closingParts]) (by simp)).trans
              (hworks.mono (by simp [closingParts]) (by simp)))
        · rw [finish_sdc, respond_sdc]
          exact hsdc
        · rw [finish_respond_acp]
          exact hacp
    · refine refuses_of (h := cardApprove code) rfl fun u hu => ?_
      unfold cardApprove
      rw [hu.authSale, hauth]
      exact if_pos hlen
    · refine serves_of_printing [.sale, .stripe] [] (h := cardDecline) (by decide) rfl fun u hu =>
        ⟨declineCard o u, ?_, declineCard_works o u, ?_⟩
      · unfold cardDecline
        rw [hu.authSale, hauth]
        rfl
      · rw [finish_sru, respond_sru, declineCard_unprinted, finish_sdc, respond_sdc, declineCard_sdc, hback]
        exact ⟨rfl, rfl⟩
    · have he : authExpires s = markLate (raise (.auth true) (declineCard o (reach c.due s))) := by
        unfold authExpires
        rw [hauth]
      have hmark (x : State) : Works [.sale] [] x (markLate x) := Works.of rfl rfl rfl rfl fun p hp => by
        cases p with
        | sale => exact absurd (by simp) hp
        | _ => rfl
      have hdeclined := declineCard_works o (reach c.due s)
      have hraised : Works ([.clock, .sale, .stripe] ++ s.printParts) ([8] ++ s.printKinds) s
          (raise (.auth true) (declineCard o (reach c.due s))) :=
        (((reach_works c.due s).mono (by simp) (by simp)).trans
          (hdeclined.mono (fun p hp => List.mem_cons_of_mem _ hp) (fun k hk => List.mem_cons_of_mem _ hk))).raised
            (by simp [Notice.kind])
      have hworks : Works ([.clock, .sale, .stripe] ++ s.printParts) ([8] ++ s.printKinds) s
          (markLate (raise (.auth true) (declineCard o (reach c.due s)))) :=
        hraised.trans ((hmark _).mono (by simp) (by simp))
      have hsru := declineCard_unprinted o (reach c.due s)
      refine does_of (f := authExpires) rfl (by rw [he]; exact hworks) (by rw [he]; exact detail_or_weight hworks (by decide)) ?_
      rw [he, finish_clock, finish_sru, finish_sdc]
      refine ⟨?_, ?_, declineCard_sdc o _, ?_⟩
      · show (composerAct _).clock = _
        rw [composerAct_clock]
        rfl
      · show { (declineCard o (reach c.due s)).sru.unprinted with lateAnswer := true } = _
        rw [hsru, hback]
        rfl
      · have hnote := standing_raise (.auth true) (declineCard o (reach c.due s))
        exact (hnote.of_notices (t := markLate _) rfl).finish s (by simp [Notice.kind])
  · refine refuses_of (h := cardApprove code) rfl fun u hu => ?_
    unfold cardApprove
    rw [hu.authSale, authSale?_none hno]
    dsimp only
    rw [lateAnswer, hu.sru]
    split <;> rfl
  · refine refuses_of (h := cardDecline) rfl fun u hu => ?_
    unfold cardDecline
    rw [hu.authSale, authSale?_none hno]
    dsimp only
    rw [lateAnswer, hu.sru]
    split <;> rfl

end Sys2Proof.Machine
end

section
/-! Proofs about suspension, resumption, abort and NO_SALE (R67, R80 to R83, R85, R108, R109). -/

namespace Sys2Proof.Machine

open Sys2Proof

/-! ## Suspension and resumption (R81, R82) -/

theorem printParts_sub_tables {s t : State} (hp : t.pen = s.pen) (hb : t.pbu = s.pbu) :
    ∀ p ∈ t.printParts, p = .tables ∨ p ∈ s.printParts := by
  intro p hm
  have hgrant : t.grantParts = s.grantParts := by rw [State.grantParts, State.grantParts, hb]
  unfold State.printParts at hm ⊢
  rw [hp, hgrant] at hm
  split at hm
  · rename_i hidle
    rw [if_pos hidle]
    rcases List.mem_append.mp hm with hm | hm
    · exact .inr (List.mem_append_left _ hm)
    · split at hm
      · exact .inl (List.mem_singleton.mp hm)
      · cases hm
  · rename_i hidle
    rw [if_neg hidle]
    exact .inr hm

/-- The composer's act after work that may also have swapped tables. -/
theorem Works.composed_tables {ps : List Part} {ks : List Nat} {s t : State} (h : Works ps ks s t) (hp : t.pen = s.pen)
    (hb : t.pbu = s.pbu) : Works (.sale :: .tables :: ps ++ s.printParts) (ks ++ s.printKinds) s (composerAct t) := by
  have hact := composerAct_works t
  rw [printKinds_eq hp] at hact
  refine (h.mono (fun p hm => by simp [hm]) fun k hm => by simp [hm]).trans (hact.mono (fun p hm => ?_) fun k hm => by simp [hm])
  rcases List.mem_cons.mp hm with rfl | hm
  · simp
  · rcases printParts_sub_tables hp hb p hm with rfl | hm
    · simp
    · simp [hm]

theorem swapSlotTables_sru (s : State) : (swapSlotTables s).sru = s.sru := by
  rw [swapSlotTables, trySwap_sru, trySwap_sru]

/-- Settles O36: the sale suspended, the refusals, and the sale resumed. -/
theorem suspendAndResumeMoveTheSale : Obligations.SuspendAndResumeMoveTheSale := by
  unfold Obligations.SuspendAndResumeMoveTheSale
  refine ⟨fun tag s o ho href hlines hcap => ?_, fun tag s => ⟨fun o rest hopen hstack => ?_, fun h => ?_⟩⟩
  · obtain ⟨hslot, hstate⟩ := openSale_some ho
    have hchecked {u : State} (hu : AtRouter (.saleSuspend tag) s u) : saleSuspend u =
        if u.sru.closing.isSome then refuse .busy u
        else if 3 ≤ u.sru.stacked then refuse .limit u
        else okay [] (suspend o u) := by
      have hkinds : ¬(o.hasKind .cash || o.hasKind .card) = true := by
        rw [Bool.or_eq_true, hasKind_iff, hasKind_iff]
        rintro (⟨x, hx, hk⟩ | ⟨x, hx, hk⟩)
        · exact (hlines x hx).1 hk
        · exact (hlines x hx).2 hk
      unfold saleSuspend
      rw [hu.openSale, ho]
      dsimp only
      rw [if_neg (by simp [href]), if_neg hkinds, if_neg (by rw [hu.wch, hcap]; simp)]
    refine ⟨fun hc hstack => ?_, fun hc => ?_, fun hc hstack => ?_⟩
    · refine serves_of_printing [.sale, .printer, .accessory, .tables] [9, 13, 14] (h := saleSuspend) (by decide) rfl
        fun u hu => ?_
      let c : Sale := { o with state := .closing, closingKind := some .suspended }
      let y : State := { u with sru := { u.sru with openSlot := none, closing := some c } }
      let z : State := raiseSale c (.live .closing) (swapSlotTables (leftOpen y))
      have hy : Works [.sale, .accessory, .tables] [9, 13, 14] u y := Works.mono (ps := [.sale]) (ks := []) (Works.of rfl rfl rfl rfl fun p hp => by
        cases p with
        | sale => exact absurd (by simp) hp
        | _ => rfl) (by simp) (by simp)
      have hleft : leftOpen y = discardHeld y := leftOpen_of_empty (by show u.wch.capture = none; rw [hu.wch, hcap])
      have hz : Works [.sale, .accessory, .tables] [9, 13, 14] u z := by
        refine Works.raised ?_ (by simp [Notice.kind])
        rw [hleft]
        exact hy.trans (((discardHeld_works y).mono (by simp) (by simp)).trans
          ((swapSlotTables_works _).mono (by simp) (by simp)))
      have hpen : z.pen = u.pen := hz.part (p := .printer) (by decide)
      have hpbu : z.pbu = u.pbu := hz.part (p := .budget) (by decide)
      have hrun : saleSuspend u = okay [] (composerAct z) := by
        have hroom : ¬3 ≤ u.sru.stacked := by
          have hfree : u.sru.reserved = false := by rw [Sru.reserved, hu.sru, hc]; rfl
          rw [Sru.stacked, hfree, hu.sru]
          simp only [Bool.false_eq_true, if_false]
          omega
        rw [hchecked hu, if_neg (by rw [hu.sru, hc]; simp), if_neg hroom]
        rfl
      refine ⟨composerAct z, hrun, ?_, ?_⟩
      · exact (hz.composed_tables hpen hpbu).mono
          (fun p hp => by simp at hp ⊢; tauto) (by simp)
      · rw [finish_sru, respond_sru, composerAct_unprinted, finish_respond_acp, composerAct_acp]
        refine ⟨?_, ?_, ?_⟩
        · show (swapSlotTables (leftOpen y)).sru.unprinted = y.sru.unprinted
          have hleftSru : (leftOpen y).sru = y.sru := (leftOpen_works y).part (p := .sale) (by decide)
          rw [swapSlotTables_sru, hleftSru]
        · show (swapSlotTables (leftOpen y)).acp.held = none
          have hacp : (swapSlotTables (leftOpen y)).acp = (leftOpen y).acp :=
            (swapSlotTables_works (leftOpen y)).part (p := .accessory) (by decide)
          rw [hacp]
          exact leftOpen_held y
        · have hstands : Standing z (.sale o.tag (.live .closing) o.incomplete) := standing_raise _ _
          exact notified_respond (hstands.composerAct (by simp [Notice.kind]) (by simp [Notice.kind])) (by simp [Notice.kind])
    · refine refuses_of (h := saleSuspend) rfl fun u hu => ?_
      rw [hchecked hu, if_pos (by rw [hu.sru]; exact Option.isSome_iff_ne_none.mpr hc)]
    · refine refuses_of (h := saleSuspend) rfl fun u hu => ?_
      have hfull : 3 ≤ u.sru.stacked := by
        rw [Sru.stacked, hu.sru]
        omega
      rw [hchecked hu, if_neg (by rw [hu.sru, hc]; simp), if_pos hfull]
  · refine serves_of_printing [.sale] [9] (h := saleResume) (by decide) rfl fun u hu => ?_
    let r := o.resume u.tbs.item.generation
    let y : State := { u with sru := { u.sru with openSlot := some r, stack := rest } }
    have hrun : saleResume u = okay [.int 2 o.tag] (composerAct (raiseSale r (.live .opened) y)) := by
      unfold saleResume
      rw [show u.sru.openSlot = none by rw [hu.sru, hopen], show u.sru.stack = o :: rest by rw [hu.sru, hstack]]
    have hy : Works [.sale] [9] u (raiseSale r (.live .opened) y) := by
      refine Works.raised (Works.mono (ps := [.sale]) (ks := []) (Works.of rfl rfl rfl rfl fun p hp => ?_) (by simp) (by simp)) (by simp [Notice.kind])
      cases p with
      | sale => exact absurd (by simp) hp
      | _ => rfl
    refine ⟨_, hrun, (hy.composed rfl rfl rfl).mono (by simp) (by simp), ?_⟩
    rw [finish_sru, respond_sru, composerAct_unprinted]
    have hstands : Standing (raiseSale r (.live .opened) y) (.sale o.tag (.live .opened) o.incomplete) := standing_raise _ _
    exact ⟨rfl, notified_respond (hstands.composerAct (by simp [Notice.kind]) (by simp [Notice.kind])) (by simp [Notice.kind])⟩
  · refine refuses_of (h := saleResume) rfl fun u hu => ?_
    unfold saleResume
    split
    · rename_i hopen hstack
      rw [hu.sru] at hopen hstack
      rcases h with h | h
      · exact absurd hopen h
      · rw [hstack] at h
        cases h
    · rfl
    · rfl

/-! ## NO_SALE (R85, R108, R109) -/

theorem issueAuth_taken {a : Auth} {s : State} (hs : s.tlc.state = .closed) (ha : s.tlc.auth = none) :
    s.tlc.issueOutcome = .taken ∧ issueAuth a s = towardGrant { s with tlc := { s.tlc with auth := some a } } := by
  have h : s.tlc.issueOutcome = .taken := by simp [Tlc.issueOutcome, hs, ha]
  exact ⟨h, if_pos h⟩

theorem held_iff (s : State) : s.held = true ↔ s.pbu.warning = true ∨ s.wch.state = .cal := by
  rw [State.held, Bool.or_eq_true, beq_iff_eq]

theorem towardGrant_held {s : State} (h : s.held = true) :
    towardGrant s = { s with tlc := { s.tlc with state := .closed } } := by
  unfold towardGrant
  rw [if_pos h]

theorem towardGrant_free {s : State} (h : s.held = false) :
    towardGrant s = placeSolenoid { s with tlc := { s.tlc with state := .waitGrant } } := by
  unfold towardGrant
  rw [if_neg (by rw [h]; exact Bool.false_ne_true)]

theorem placeSolenoid_fits {s : State} (ha : s.pbu.arbiter = none) (hp : s.pbu.pulse = none)
    (hg : grantSum s.pbu.grants + 40 ≤ 64) :
    placeSolenoid s = grantSolenoid { s with pbu := { s.pbu with solenoidReq := some s.clock } } := by
  have hfits : ({ s.pbu with solenoidReq := some s.clock } : Pbu).solenoidFits = true := by
    simp [Pbu.solenoidFits, ha, hp, solenoidCost, budget, hg]
  unfold placeSolenoid examine
  rw [if_pos (by simpa using hfits)]

/-- A solenoid request that fits is granted as it is placed (R151). -/
theorem placeSolenoid_granted {s : State} (ha : s.pbu.arbiter = none) (hp : s.pbu.pulse = none)
    (hg : grantSum s.pbu.grants + 40 ≤ 64) :
    (placeSolenoid s).tlc.state = .pulsing (s.clock + s.lli.params.drawerPulse * 1000) ∧
    (placeSolenoid s).wch.window = .opened none ∧
    (placeSolenoid s).pbu.grants = s.pbu.grants ++ [⟨.solenoid, s.clock, 40⟩] := by
  rw [placeSolenoid_fits ha hp hg]
  exact ⟨rfl, rfl, rfl⟩

/-- A request that waits for the arbiter stays placed (R149, R151). -/
theorem placeSolenoid_waits {s : State} (ha : s.pbu.arbiter ≠ none) :
    (placeSolenoid s).tlc = s.tlc ∧ (placeSolenoid s).pbu.solenoidReq = some s.clock := by
  unfold placeSolenoid
  rcases examine_cases { s with pbu := { s.pbu with solenoidReq := some s.clock } } with ⟨_, h, _⟩ | ⟨r, _, _, e⟩ | e
  · rw [Pbu.solenoidFits, Bool.and_eq_true, Bool.and_eq_true] at h
    exact absurd (Option.isNone_iff_eq_none.mp h.1.1) ha
  · rw [e]
    exact ⟨rfl, rfl⟩
  · rw [e]
    exact ⟨rfl, rfl⟩

/-- Settles O38: the refusals, the authorization taken, satisfied and merged. -/
theorem noSaleIssuesAnAuthorization : Obligations.NoSaleIssuesAnAuthorization := by
  unfold Obligations.NoSaleIssuesAnAuthorization
  refine fun tag s => ⟨fun h => ?_, fun hlane ho => ⟨fun hs ha => ?_, fun h => ?_, fun h => ?_⟩⟩
  · refine refuses_of (h := noSale) rfl fun u hu => ?_
    unfold noSale
    rw [if_pos]
    rw [hu.lane, hu.sru, Option.isSome_iff_ne_none]
    exact h
  all_goals
    have hrun {u : State} (hu : AtRouter (.noSale tag) s u) :
        noSale u = okay [.enum u.tlc.issueOutcome.code] (issueAuth .noSale u) := by
      unfold noSale
      rw [if_neg]
      rw [hu.lane, hu.sru, ho]
      simp [hlane]
  · refine serves_of (h := noSale) rfl fun u hu => ?_
    obtain ⟨hout, hissue⟩ := issueAuth_taken (a := .noSale) (s := u) (by rw [hu.tlc, hs]) (by rw [hu.tlc, ha])
    have hauth := issueAuth_auth .noSale u
    rw [if_pos ⟨by rw [hu.tlc, hs], by rw [hu.tlc, ha]⟩] at hauth
    rw [hrun hu, hout]
    refine ⟨rfl, (issueAuth_works .noSale u).mono (by simp) (by simp), .inr (by simp), ?_⟩
    rw [finish_tlc, respond_tlc, finish_pbu, respond_pbu, finish_wch, respond_wch]
    refine ⟨hauth, fun hheld => ?_, fun hw hcal harb hpulse hsum => ?_, fun hw hcal harb => ?_⟩
    · have h : ({ u with tlc := { u.tlc with auth := some .noSale } } : State).held = true := (held_iff _).mpr hheld
      show (issueAuth .noSale u).tlc.state = _ ∧ (issueAuth .noSale u).pbu = _ ∧ (issueAuth .noSale u).wch = _
      rw [hissue, towardGrant_held h]
      exact ⟨rfl, rfl, rfl⟩
    all_goals
      have h : ({ u with tlc := { u.tlc with auth := some .noSale } } : State).held = false :=
        Bool.eq_false_iff.mpr fun hn => by
          rcases (held_iff _).mp hn with hn | hn
          · have hn' : u.pbu.warning = true := hn
            rw [hw] at hn'
            cases hn'
          · exact hcal hn
    · show (issueAuth .noSale u).tlc.state = _ ∧ (issueAuth .noSale u).wch.window = _ ∧ (issueAuth .noSale u).pbu.grants = _
      rw [hissue, towardGrant_free h]
      exact placeSolenoid_granted harb hpulse hsum
    · show (issueAuth .noSale u).tlc.state = _ ∧ (issueAuth .noSale u).pbu.solenoidReq = _
      rw [hissue, towardGrant_free h]
      obtain ⟨htlc, hreq⟩ := placeSolenoid_waits
        (s := { u with tlc := { u.tlc with auth := some .noSale, state := .waitGrant } }) harb
      exact ⟨by rw [htlc], hreq⟩
  · refine serves_of (h := noSale) rfl fun u hu => ?_
    have hout : u.tlc.issueOutcome = .satisfied := by
      rw [Tlc.issueOutcome, hu.tlc]
      rcases h with ⟨f, d, h⟩ | ⟨f, h⟩ <;> rw [h]
    rw [hrun hu, hout, issueAuth, if_neg (by rw [hout]; decide)]
    exact ⟨rfl, Works.refl _ _ u, .inl rfl, trivial⟩
  · refine serves_of (h := noSale) rfl fun u hu => ?_
    have hout : u.tlc.issueOutcome = .merged := by
      rw [Tlc.issueOutcome, hu.tlc]
      rcases h with h | ⟨d, h⟩ | ⟨d, h⟩ | h | ⟨h, hauth⟩ <;> rw [h]
      dsimp only
      rw [if_neg (by simpa using hauth)]
    rw [hrun hu, hout, issueAuth, if_neg (by rw [hout]; decide)]
    exact ⟨rfl, Works.refl _ _ u, .inl rfl, trivial⟩

end Sys2Proof.Machine
end

section
/-! Proofs about the abort of a sale (R22, R67, R80, R83, R108). -/

namespace Sys2Proof.Machine

open Sys2Proof

/-! ## The sale ABORTED (R83) -/

/-- A line whose number is outstanding becomes VOIDED with amount 0 (R83). -/
def Line.cancelled (ns : List Nat) (x : Line) : Line :=
  if x.number ∈ ns then { x with state := .voided, amount := 0 } else x

theorem Line.cancelled_cons (n : Nat) (ns : List Nat) (x : Line) :
    Line.cancelled ns (if x.number = n then { x with state := .voided, amount := 0 } else x) = x.cancelled (n :: ns) := by
  by_cases hn : x.number = n
  · by_cases hm : n ∈ ns <;> simp [Line.cancelled, hn, hm]
  · simp [Line.cancelled, hn]

theorem foldl_voidReferred (ns : List Nat) (o : Sale) :
    ns.foldl Sale.voidReferred o = { o with
      lines := o.lines.map (Line.cancelled ns)
      referrals := (ns.foldl Sale.voidReferred o).referrals } := by
  induction ns generalizing o with
  | nil =>
    have hid : (Line.cancelled [] : Line → Line) = id := by
      funext x
      simp [Line.cancelled]
    rw [hid, List.map_id]
    rfl
  | cons n ns ih =>
    rw [List.foldl_cons, ih]
    simp only [Sale.voidReferred, Sale.dropReferral, Sale.edit, List.map_map]
    congr 2
    funext x
    exact Line.cancelled_cons n ns x

theorem aborted_eq (o : Sale) :
    o.aborted = { o with
      state := .aborted, cardTender := none, referrals := []
      lines := o.lines.map fun x => if x.number ∈ o.outstanding then { x with state := .voided, amount := 0 } else x } := by
  rw [Sale.aborted, foldl_voidReferred]
  rfl

/-! ## The stages of an abort -/

/-- The tender and the referrals ended (R80, R83). -/
def abortCleared (o : Sale) (u : State) : State :=
  if o.referrals.isEmpty then abortTender o (setOpen o.aborted u)
  else raiseReferral o.aborted (abortTender o (setOpen o.aborted u))

/-- The authorization for cash held (R83, R108). -/
def abortIssued (o : Sale) (u : State) : State :=
  if 0 < o.tenderTotal then issueAuth (.abortCash o.tag) (abortCleared o u) else abortCleared o u

/-- WCH and ACP have heard that the sale left OPEN, and SALE reports it (R67, R83). -/
def abortReported (o : Sale) (u : State) : State := raiseSale o.aborted (.live .aborted) (reportLeft o (abortIssued o u))

theorem abort_eq (o : Sale) (u : State) : abort o u = composerAct (enterClosing (abortReported o u)) := rfl

section
variable (o : Sale) (u : State)

theorem abortTender_works (x : State) : Works [.sale, .stripe] [8] x (abortTender o x) := by
  unfold abortTender
  split
  · have hcleared : Works [.sale, .stripe] [8] x (raise (.auth false) (clearCard x)) :=
      ((clearCard_works x).mono (by simp) (by simp)).raised (by simp [Notice.kind])
    refine hcleared.trans (Works.mono (ps := [.sale]) (ks := []) (Works.of rfl rfl rfl rfl fun p hp => ?_) (by simp) (by simp))
    cases p with
    | sale => exact absurd (by simp) hp
    | _ => rfl
  · exact Works.refl _ _ x

theorem abortCleared_works : Works [.sale, .stripe] [7, 8] u (abortCleared o u) := by
  have h : Works [.sale, .stripe] [7, 8] u (abortTender o (setOpen o.aborted u)) :=
    ((setOpen_works _ u).mono (by simp) (by simp)).trans ((abortTender_works o _).mono (by simp) (by simp))
  unfold abortCleared
  split
  · exact h
  · exact h.raised (by simp [Notice.kind])

theorem abortCleared_sru :
    (abortCleared o u).sru =
      { u.sru with openSlot := some o.aborted, lateAnswer := u.sru.lateAnswer || o.cardTender.isSome } := by
  have h : (abortTender o (setOpen o.aborted u)).sru =
      { u.sru with openSlot := some o.aborted, lateAnswer := u.sru.lateAnswer || o.cardTender.isSome } := by
    unfold abortTender
    cases o.cardTender with
    | none => simp [setOpen]
    | some c => simp [markLate, setOpen]
  unfold abortCleared
  split
  · exact h
  · exact h

theorem abortCleared_sdc :
    (abortCleared o u).sdc = if o.cardTender.isSome then { u.sdc with slot := .empty } else u.sdc := by
  unfold abortCleared abortTender
  split <;> split <;> rfl

theorem abortIssued_works : Works [.sale, .stripe, .budget, .till, .weighing, .printer] [7, 8] u (abortIssued o u) := by
  have h := (abortCleared_works o u).mono (qs := [.sale, .stripe, .budget, .till, .weighing, .printer]) (js := [7, 8])
    (by simp) (by simp)
  unfold abortIssued
  split
  · exact h.trans ((issueAuth_works _ _).mono (by simp) (by simp))
  · exact h

theorem abortIssued_lli : (abortIssued o u).lli = (abortCleared o u).lli := by
  unfold abortIssued
  split
  · rw [issueAuth_lli]
  · rfl

theorem abortIssued_part {p : Part} (hp : p ∉ [Part.budget, .till, .weighing, .printer]) :
    exactPart (abortCleared o u) (abortIssued o u) p := by
  unfold abortIssued
  split
  · exact issueAuth_part _ _ hp
  · cases p <;> rfl

theorem abortIssued_window : WindowOnly u (abortIssued o u) := by
  have h : WindowOnly u (abortCleared o u) := .of_eq ((abortCleared_works o u).part (p := .weighing) (by decide))
  unfold abortIssued
  split
  · exact h.trans (issueAuth_window _ _)
  · exact h

theorem abortReported_works :
    Works [.sale, .stripe, .budget, .till, .weighing, .printer, .accessory] [3, 7, 8, 9, 14] u (abortReported o u) := by
  refine Works.raised ?_ (by simp [Notice.kind])
  exact ((abortIssued_works o u).mono (by simp) (by simp)).trans ((reportLeft_works o _).mono (by simp) (by simp))

/-- The abort's frame (R83). -/
theorem abort_works : Works closingParts [2, 3, 7, 8, 9, 12, 13, 14] u (abort o u) := by
  have hentered : Works closingParts [2, 3, 7, 8, 9, 12, 13, 14] u (enterClosing (abortReported o u)) :=
    ((abortReported_works o u).mono (by simp [closingParts]) (by simp)).trans
      ((enterClosing_works _).mono (by simp [closingParts]) (by simp))
  rw [abort_eq]
  refine hentered.trans ((composerAct_works _).mono (fun p hp => ?_) fun k hk => ?_)
  · rcases List.mem_cons.mp hp with rfl | hp
    · simp [closingParts]
    · have := printParts_sub _ p hp
      simp only [closingParts, List.mem_cons, List.not_mem_nil, or_false] at this ⊢
      tauto
  · have := printKinds_sub _ k hk
    simp only [List.mem_cons, List.not_mem_nil, or_false] at this ⊢
    omega

/-- A part that neither the closing slot nor the composer touches is as the report left it. -/
theorem abort_part {p : Part} (hp : p ∉ [Part.sale, .printer, .budget, .till, .weighing, .tables]) :
    exactPart (abortReported o u) (abort o u) p := by
  have hentered := enterClosing_part (abortReported o u) (p := p) fun h => hp (by simp at h ⊢; tauto)
  have hacted := composerAct_part (enterClosing (abortReported o u)) hp
  rw [abort_eq]
  exact exactPart_trans hentered hacted

theorem abortReported_part {p : Part} (hp : p ∉ [Part.weighing, .accessory]) :
    exactPart (abortIssued o u) (abortReported o u) p := by
  have h := reportLeft_part o (abortIssued o u) hp
  cases p <;> exact h

theorem abort_unprinted :
    (abort o u).sru.unprinted =
      (match u.sru.closing with
       | none =>
         { u.sru with
           openSlot := none
           closing := some { o.aborted with state := .closing, closingKind := some .aborted }
           lateAnswer := u.sru.lateAnswer || o.cardTender.isSome }
       | some _ =>
         { u.sru with openSlot := some o.aborted, lateAnswer := u.sru.lateAnswer || o.cardTender.isSome }).unprinted := by
  have hissued : (abortIssued o u).sru = (abortCleared o u).sru := abortIssued_part o u (p := .sale) (by decide)
  have hreported : (abortReported o u).sru = (abortIssued o u).sru := abortReported_part o u (p := .sale) (by decide)
  rw [abort_eq, composerAct_unprinted, enterClosing_sru, hreported, hissued, abortCleared_sru]
  unfold Sru.entered
  cases hc : u.sru.closing with
  | none => rfl
  | some c => rfl

theorem abort_auth : (abort o u).tlc.auth = (abortIssued o u).tlc.auth := by
  have hentered : (enterClosing (abortReported o u)).tlc = (abortReported o u).tlc :=
    enterClosing_part (p := .till) _ (by decide)
  have hreported : (abortReported o u).tlc = (abortIssued o u).tlc := abortReported_part o u (p := .till) (by decide)
  rw [abort_eq, composerAct_auth, hentered, hreported]

theorem abort_tail {n : Notice} (h : Standing (abortReported o u) n) (h12 : n.kind ≠ 12) (h13 : n.kind ≠ 13) :
    Standing (abort o u) n := by
  rw [abort_eq]
  exact (h.enterClosing h13).composerAct h12 h13

theorem Standing.reportLeft {s : State} {n : Notice} (o : Sale) (h : Standing s n) (h3 : n.kind ≠ 3) (h14 : n.kind ≠ 14) :
    Standing (reportLeft o s) n := by
  unfold Machine.reportLeft
  split
  · exact (h.endCapture _ h3).discardHeld h14
  · exact h

/-- A notice of the tender's or the referrals' end stands at the end of the abort. -/
theorem abort_standing {n : Notice} (h : Standing (abortCleared o u) n) (h3 : n.kind ≠ 3) (h9 : n.kind ≠ 9)
    (h12 : n.kind ≠ 12) (h13 : n.kind ≠ 13) (h14 : n.kind ≠ 14) : Standing (abort o u) n := by
  refine abort_tail o u (Standing.raised _ (Standing.reportLeft o ?_ h3 h14) (by simpa [Notice.kind] using Ne.symm h9)) h12 h13
  exact h.of_notices (by rw [abortIssued_lli])

theorem abortTender_standing {x : State} (h : o.cardTender ≠ none) : Standing (abortTender o x) (.auth false) := by
  have hstands : Standing (raise (.auth false) (clearCard x)) (.auth false) := standing_raise _ _
  unfold abortTender
  rw [if_pos (Option.isSome_iff_ne_none.mpr h)]
  exact hstands.of_notices rfl

theorem outstanding_aborted : o.aborted.outstanding = [] := rfl

end

/-- Settles O37: the CARD line that refuses, and each effect of the abort. -/
theorem saleAbortEndsTheSaleAtOneEvent : Obligations.SaleAbortEndsTheSaleAtOneEvent := by
  unfold Obligations.SaleAbortEndsTheSaleAtOneEvent
  intro tag s o ho hs
  have hrun {u : State} (hu : AtRouter (.saleAbort tag) s u) :
      saleAbort u = if o.hasKind .card then refuse .state u else okay [] (abort o u) := by
    have hlive : ¬(o.state ≠ .opened ∧ o.state ≠ .tendering ∧ o.state ≠ .authWait) := by tauto
    unfold saleAbort
    rw [hu.sru, ho]
    dsimp only
    rw [if_neg hlive]
  refine ⟨fun hcard => ?_, fun hcard => ?_⟩
  · exact refuses_of (h := saleAbort) rfl fun u hu => by rw [hrun hu, if_pos ((hasKind_iff o .card).mpr hcard)]
  · refine serves_of (h := saleAbort) rfl fun u hu => ?_
    have hnone : ¬o.hasKind .card = true := fun h => by
      obtain ⟨x, hx, hk⟩ := (hasKind_iff o .card).mp h
      exact hcard x hx hk
    rw [hrun hu, if_neg hnone]
    refine ⟨rfl, abort_works o u, .inr (by simp), ?_⟩
    intro aborted
    have haborted : o.aborted = aborted := aborted_eq o
    have hissuedWch := abortIssued_window o u
    have hsdc : (abort o u).sdc = (abortCleared o u).sdc := by
      have h1 : (abort o u).sdc = (abortReported o u).sdc := abort_part o u (p := .stripe) (by decide)
      have h2 : (abortReported o u).sdc = (abortIssued o u).sdc := abortReported_part o u (p := .stripe) (by decide)
      have h3 : (abortIssued o u).sdc = (abortCleared o u).sdc := abortIssued_part o u (p := .stripe) (by decide)
      exact h1.trans (h2.trans h3)
    have hclearedTlc : (abortCleared o u).tlc = u.tlc := (abortCleared_works o u).part (p := .till) (by decide)
    have hopened (hopen : o.state = .opened) : (reportLeft o (abortIssued o u)) = leftOpen (abortIssued o u) :=
      reportLeft_opened hopen _
    rw [finish_sru, respond_sru, finish_sdc, respond_sdc, finish_sst, respond_sst, finish_wch, respond_wch, finish_tlc,
      respond_tlc, finish_respond_acp]
    refine ⟨?_, ?_, fun href => ?_, fun hcard' => ⟨?_, ?_⟩, fun hcard' => ?_, ?_, fun hopen => ⟨?_, ?_⟩,
      fun c hopen hc => ?_, fun hcash hstate hauth => ?_, fun hcash => ?_⟩
    · rw [← haborted]
      exact abort_unprinted o u
    · have hstands : Standing (abortReported o u) (.sale o.tag (.live .aborted) o.incomplete) := by
        have hkept : o.aborted.tag = o.tag ∧ o.aborted.incomplete = o.incomplete := by
          rw [aborted_eq]
          exact ⟨rfl, rfl⟩
        rw [← hkept.1, ← hkept.2]
        exact standing_raise _ _
      exact notified_respond (abort_tail o u hstands (by simp [Notice.kind]) (by simp [Notice.kind])) (by simp [Notice.kind])
    · have hstands : Standing (abortCleared o u) (.referral []) := by
        unfold abortCleared
        rw [if_neg (by simpa using href)]
        exact standing_raise _ _
      exact notified_respond (abort_standing o u hstands (by simp [Notice.kind]) (by simp [Notice.kind]) (by simp [Notice.kind])
        (by simp [Notice.kind]) (by simp [Notice.kind])) (by simp [Notice.kind])
    · have hstands : Standing (abortCleared o u) (.auth false) := by
        unfold abortCleared
        split
        · exact abortTender_standing o hcard'
        · exact (abortTender_standing o hcard').raised _ (by simp [Notice.kind])
      exact notified_respond (abort_standing o u hstands (by simp [Notice.kind]) (by simp [Notice.kind]) (by simp [Notice.kind])
        (by simp [Notice.kind]) (by simp [Notice.kind])) (by simp [Notice.kind])
    · exact hsdc.trans ((abortCleared_sdc o u).trans (if_pos (Option.isSome_iff_ne_none.mpr hcard')))
    · refine hsdc.trans ((abortCleared_sdc o u).trans (if_neg ?_))
      rw [hcard']
      exact Bool.false_ne_true
    · have h1 : (abort o u).sst = (abortReported o u).sst := abort_part o u (p := .store) (by decide)
      exact h1.trans ((abortReported_works o u).part (p := .store) (by decide))
    · have hkept : WindowOnly (abortReported o u) (abort o u) := by
        have hentered : (enterClosing (abortReported o u)).wch = (abortReported o u).wch :=
          enterClosing_part (p := .weighing) _ (by decide)
        exact (WindowOnly.of_eq hentered).trans (composerAct_window _)
      show (abort o u).wch.capture = none
      rw [hkept.1]
      show (reportLeft o (abortIssued o u)).wch.capture = none
      rw [hopened hopen, leftOpen, discardHeld_wch]
      exact endCapture_capture _ _
    · have hacp : (abort o u).acp = (abortReported o u).acp := abort_part o u (p := .accessory) (by decide)
      show (abort o u).acp.held = none
      rw [hacp]
      show (reportLeft o (abortIssued o u)).acp.held = none
      rw [hopened hopen]
      exact leftOpen_held _
    · have hcapture : (abortIssued o u).wch.capture = some c := by
        rw [hissuedWch.1]
        exact hc
      have hstands : Standing (reportLeft o (abortIssued o u)) (.capture c.source .abandoned none) := by
        rw [hopened hopen, leftOpen, endCapture_some hcapture]
        exact (standing_raise _ _).discardHeld (by simp [Notice.kind])
      exact notified_respond (abort_tail o u (hstands.raised _ (by simp [Notice.kind])) (by simp [Notice.kind])
        (by simp [Notice.kind])) (by simp [Notice.kind])
    · show (abort o u).tlc.auth = _
      rw [abort_auth, abortIssued, if_pos hcash, issueAuth_auth, hclearedTlc, if_pos ⟨hstate, hauth⟩]
    · show (abort o u).tlc.auth = _
      rw [abort_auth, abortIssued, if_neg (by omega), hclearedTlc]

end Sys2Proof.Machine
end

section
/-! Proofs about card stripe reading (R89 to R93, R99, R100, R103). -/

namespace Sys2Proof.Machine

open Sys2Proof

/-! ## The bit stage (R90 to R92) -/

section
variable {d : Decoder} {c t : Nat}

theorem interval_leadin (h : d.state = .leadin) : d.interval t = d.leadInterval t := by rw [Decoder.interval, h]

theorem interval_bits (h : d.state = .bits) : d.interval t = d.bitInterval t := by rw [Decoder.interval, h]

theorem leadInterval_early (h : d.intervals < 7) :
    d.leadInterval t = { d with intervals := d.intervals + 1, leadSum := d.leadSum + t } := by
  unfold Decoder.leadInterval Decoder.formCell
  exact if_pos (by dsimp only; omega)

theorem leadInterval_eighth (h : d.intervals = 7) :
    d.leadInterval t =
      if 20 ≤ (d.leadSum + t) / 8 ∧ (d.leadSum + t) / 8 ≤ 2000 then
        { d with intervals := 8, leadSum := d.leadSum + t, cell := some ((d.leadSum + t) / 8), state := .bits, buffer := [],
                 half := none }
      else { d with intervals := 8, leadSum := d.leadSum + t, cell := some ((d.leadSum + t) / 8), status := some .speed,
                    state := .done } := by
  unfold Decoder.leadInterval Decoder.formCell
  rw [if_neg (by dsimp only; omega), h]

theorem append_room {b : Bool} (h : d.buffer.length < 1024) : d.append b = { d with buffer := d.buffer ++ [b] } := if_pos h

theorem append_full {b : Bool} (h : 1024 ≤ d.buffer.length) : d.append b = { d with status := some .overlength, state := .done } :=
  if_neg (by omega)

theorem bitInterval_full (hc : d.cell = some c) (ht : 3 * c ≤ 4 * t) (hh : d.half = none) :
    d.bitInterval t = { d with cell := some ((3 * c + t) / 4) }.append false := by
  unfold Decoder.bitInterval
  rw [hc]
  dsimp only
  rw [if_pos ht, hh]

theorem bitInterval_bad (hc : d.cell = some c) (ht : 3 * c ≤ 4 * t) (hh : d.half ≠ none) :
    d.bitInterval t = { d with status := some .badBits, state := .done } := by
  obtain ⟨x, hx⟩ := Option.ne_none_iff_exists'.mp hh
  unfold Decoder.bitInterval
  rw [hc]
  dsimp only
  rw [if_pos ht, hx]

theorem bitInterval_half (hc : d.cell = some c) (ht : 4 * t < 3 * c) (hh : d.half = none) :
    d.bitInterval t = { d with half := some t } := by
  unfold Decoder.bitInterval
  rw [hc]
  dsimp only
  rw [if_neg (by omega), hh]

theorem bitInterval_second {h : Nat} (hc : d.cell = some c) (ht : 4 * t < 3 * c) (hh : d.half = some h) :
    d.bitInterval t = { d with cell := some ((3 * c + h + t) / 4), half := none }.append true := by
  unfold Decoder.bitInterval
  rw [hc]
  dsimp only
  rw [if_neg (by omega), hh]

end

/-! ## The swipe's end time (R93) -/

/-- The end of a decoder's quiet time, 0 before its first transition. -/
theorem quietEnd_getD (d : Decoder) :
    d.quietEnd.getD 0 =
      match d.lastTime, d.cell with
      | none, _ => 0
      | some x, none => x + 20000
      | some x, some c => x + max 20000 (4 * c) := by
  unfold Decoder.quietEnd
  cases d.lastTime with
  | none => rfl
  | some x =>
    cases d.cell with
    | none => simp
    | some c => rfl

theorem with_sdc_works (d : Sdc) (s : State) : Works [.stripe] [] s { s with sdc := d } :=
  Works.of rfl rfl rfl rfl fun p hp => by
    cases p with
    | stripe => exact absurd (List.mem_singleton_self _) hp
    | _ => rfl

theorem trySwap_sdc (n : TableName) (s : State) : (trySwap n s).sdc = s.sdc := by
  unfold trySwap
  split <;> rfl

theorem trySwap_clock (n : TableName) (s : State) : (trySwap n s).clock = s.clock := by
  unfold trySwap
  split <;> rfl

theorem trySwap_not_ready {n : TableName} {s : State} (h : s.swapReady n = false) : trySwap n s = s := by
  unfold trySwap
  rw [if_neg (by rw [h, Bool.and_false]; exact Bool.false_ne_true)]

section
variable {d : Sdc} {k j : Track} {e : Decoder}

theorem decoder_setDecoder_same : (d.setDecoder k e).decoder k = e := by cases k <;> rfl

theorem decoder_setDecoder_other (h : j ≠ k) : (d.setDecoder k e).decoder j = d.decoder j := by
  cases j with
  | a => cases k with
    | a => exact absurd rfl h
    | b => rfl
  | b => cases k with
    | a => rfl
    | b => exact absurd rfl h

theorem setDecoder_kept : (d.setDecoder k e).slot = d.slot ∧ (d.setDecoder k e).counter = d.counter ∧
    (d.setDecoder k e).swipe = d.swipe := by cases k <;> exact ⟨rfl, rfl, rfl⟩

theorem idle_iff : d.idle = true ↔ d.trackA.state = .idle ∧ d.trackB.state = .idle := by
  rw [Sdc.idle, Bool.and_eq_true, beq_iff_eq, beq_iff_eq]

end

/-! ## The card record slot (R99) -/

section
variable {w : Swipe} {a b : TrackOutcome} {s : State}

theorem placeRecord_nothing (ha : a.status = .noData) (hb : b.status = .noData) : placeRecord w a b s = s := if_pos ⟨ha, hb⟩

theorem placeRecord_held (h : ¬(a.status = .noData ∧ b.status = .noData)) (hs : ∀ r, s.sdc.slot ≠ .bound r) :
    placeRecord w a b s = holdRecord w a b s := by
  unfold placeRecord
  rw [if_neg h]
  cases hslot : s.sdc.slot with
  | empty => rfl
  | held r due => rfl
  | bound r => exact absurd hslot (hs r)

theorem placeRecord_refused {r : CardRecord} (h : ¬(a.status = .noData ∧ b.status = .noData)) (hs : s.sdc.slot = .bound r) :
    placeRecord w a b s = raise (.cardCleared .refused) s := by
  unfold placeRecord
  rw [if_neg h, hs]

theorem placeRecord_works (w : Swipe) (a b : TrackOutcome) (s : State) : Works [.stripe] [5, 6] s (placeRecord w a b s) := by
  have hheld : Works [.stripe] [5, 6] s (holdRecord w a b s) :=
    ((with_sdc_works _ s).mono (by simp) (by simp)).raised (by simp [Notice.kind])
  unfold placeRecord
  split
  · exact Works.refl _ _ s
  · split
    · exact hheld
    · exact hheld
    · exact (Works.refl _ _ s).raised (by simp [Notice.kind])

end

theorem endSwipe_works (w : Swipe) (s : State) : Works [.stripe, .tables] [5, 6, 13] s (endSwipe w s) :=
  ((placeRecord_works w _ _ s).mono (by simp) (by simp)).trans
    (((with_sdc_works _ _).mono (by simp) (by simp)).trans ((trySwap_works .cardFormat _).mono (by simp) (by simp)))

/-- The decoder's part of the end of a swipe is that of the slot, with the decoders IDLE (R93, R99). -/
theorem endSwipe_sdc (w : Swipe) (s : State) :
    (endSwipe w s).sdc = (placeRecord w (s.sdc.trackA.outcome w.formatA) (s.sdc.trackB.outcome w.formatB) s).sdc.endSwipe := by
  rw [endSwipe, trySwap_sdc]

/-- Settles O39: the swipe's start and later transitions, the bit stage, and the swipe's end. -/
theorem swipesAreTimedDecodedAndPlaced : Obligations.SwipesAreTimedDecodedAndPlaced := by
  unfold Obligations.SwipesAreTimedDecodedAndPlaced
  refine ⟨fun k time s ha hb => ?_, fun k j time s w hbusy hj hw => ?_, fun d t => ⟨fun h hi => ?_, fun h hi => ?_,
    fun c h hc hfull hbit => ?_, fun h => ?_⟩, fun d c t h hc hroom => ⟨fun ht hh => ?_, fun ht hh => ?_, fun ht hh => ?_,
    fun x ht hh => ?_⟩, fun s w hw => ?_⟩
  · have hidle : s.sdc.idle = true := idle_iff.mpr ⟨ha, hb⟩
    let started : State := { reach time s with sdc := s.sdc.startSwipe s.tbs k time }
    have he : fluxTransition k time s = started := by
      have hflux : s.sdc.flux s.tbs k time = s.sdc.startSwipe s.tbs k time := if_pos hidle
      show trySwap .cardFormat { reach time s with sdc := s.sdc.flux s.tbs k time } = _
      rw [hflux]
      refine trySwap_not_ready ?_
      cases k <;> rfl
    refine does_of (f := fluxTransition k time) rfl ?_ (.inl ?_) ?_ <;> rw [he]
    · exact ((reach_works time s).mono (by simp) (by simp)).trans ((with_sdc_works _ _).mono (by simp) (by simp))
    · rfl
    · rw [finish_clock, finish_sdc]
      refine ⟨rfl, ?_⟩
      cases k
      · refine ⟨rfl, rfl, ?_, rfl, rfl⟩
        show some (Swipe.mk _ _ _ (max (time + 20000) 0)) = _
        rw [Nat.max_eq_left (Nat.zero_le _)]
      · refine ⟨rfl, rfl, ?_, rfl, rfl⟩
        show some (Swipe.mk _ _ _ (max 0 (time + 20000))) = _
        rw [Nat.max_eq_right (Nat.zero_le _)]
  · have hflux : s.sdc.flux s.tbs k time = (s.sdc.setDecoder k ((s.sdc.decoder k).transition time)).moveEnd :=
      if_neg fun hidle => hbusy (idle_iff.mp hidle)
    obtain ⟨hslot, hcounter, hswipe⟩ := setDecoder_kept (d := s.sdc) (k := k) (e := (s.sdc.decoder k).transition time)
    have hsdc : (fluxTransition k time s).sdc = (s.sdc.setDecoder k ((s.sdc.decoder k).transition time)).moveEnd := by
      rw [← hflux]
      exact trySwap_sdc _ _
    have hdecoder (x : Sdc) (m : Track) : x.moveEnd.decoder m = x.decoder m := by cases m <;> rfl
    have hworks : Works [.clock, .stripe, .tables] [13] s (fluxTransition k time s) :=
      ((reach_works time s).mono (by simp) (by simp)).trans
        (((with_sdc_works _ (reach time s)).mono (by simp) (by simp)).trans
          ((trySwap_works .cardFormat _).mono (by simp) (by simp)))
    refine does_of (f := fluxTransition k time) rfl hworks (.inl (detail_of_works hworks (by decide))) ?_
    rw [finish_clock, finish_sdc, hsdc, hdecoder, hdecoder, decoder_setDecoder_same, decoder_setDecoder_other hj]
    refine ⟨trySwap_clock _ _, hslot, hcounter, ?_, rfl, fun last hlast => ?_, fun hlast => ?_⟩
    · show (Sdc.swipe _).map _ = _
      rw [hswipe, hw]
      show some _ = some _
      rw [Sdc.swipeEnds, quietEnd_getD, quietEnd_getD]
      rfl
    · rw [Decoder.transition, hlast]
    · rw [Decoder.transition, hlast]
  · rw [interval_leadin h, leadInterval_early hi]
  · intro c
    rw [interval_leadin h, leadInterval_eighth hi]
  · rw [interval_bits h]
    rcases hbit with ⟨ht, hh⟩ | ⟨ht, hh⟩
    · rw [bitInterval_full hc ht hh, append_full (by exact hfull)]
      exact ⟨rfl, rfl, rfl⟩
    · obtain ⟨x, hx⟩ := Option.ne_none_iff_exists'.mp hh
      rw [bitInterval_second hc ht hx, append_full (by exact hfull)]
      exact ⟨rfl, rfl, rfl⟩
  · rw [Decoder.interval, h]
  · rw [interval_bits h, bitInterval_full hc ht hh, append_room (by exact hroom)]
  · rw [interval_bits h, bitInterval_bad hc ht hh]
  · rw [interval_bits h, bitInterval_half hc ht hh]
  · rw [interval_bits h, bitInterval_second hc ht hh, append_room (by exact hroom)]
  · have he : swipeEnds s = endSwipe w (reach w.ends s) := by rw [swipeEnds, hw]
    have hworks : Works [.clock, .stripe, .tables] [5, 6, 13] s (endSwipe w (reach w.ends s)) :=
      ((reach_works w.ends s).mono (by simp) (by simp)).trans ((endSwipe_works w _).mono (by simp) (by simp))
    have hclock : (endSwipe w (reach w.ends s)).clock = max s.clock w.ends := (endSwipe_works w _).part (p := .clock) (by decide)
    refine does_of (f := swipeEnds) rfl (by rw [he]; exact hworks)
      (.inl (by rw [he]; exact detail_of_works hworks (by decide))) ?_
    intro a b serial
    have hsdc : (endSwipe w (reach w.ends s)).sdc = (placeRecord w a b (reach w.ends s)).sdc.endSwipe := endSwipe_sdc w _
    have hstanding {n : Notice} (hn : Standing (placeRecord w a b (reach w.ends s)) n) (hk : n.kind ≠ 13) (h2 : n.kind ≠ 2) :
        Notified (finish s (endSwipe w (reach w.ends s))) n := by
      refine Standing.finish s (Standing.trySwap .cardFormat ?_ hk) h2
      exact hn.of_notices rfl
    rw [he, finish_clock, finish_sdc, hclock, hsdc]
    refine ⟨rfl, rfl, rfl, rfl, fun ha hb => ?_, fun hne hslot => ?_, fun r hne hslot => ?_⟩
    · rw [placeRecord_nothing ha hb]
      exact ⟨rfl, rfl⟩
    · have hplaced : placeRecord w a b (reach w.ends s) = holdRecord w a b (reach w.ends s) := placeRecord_held hne hslot
      refine ⟨?_, ?_, hstanding ?_ (by simp [Notice.kind]) (by simp [Notice.kind])⟩ <;> rw [hplaced]
      · rfl
      · rfl
      · exact standing_raise _ _
    · have hplaced : placeRecord w a b (reach w.ends s) = raise (.cardCleared .refused) (reach w.ends s) :=
        placeRecord_refused hne hslot
      refine ⟨?_, ?_, hstanding ?_ (by simp [Notice.kind]) (by simp [Notice.kind])⟩ <;> rw [hplaced]
      · exact hslot
      · rfl
      · exact standing_raise _ _

/-! ## Expiry and release (R100, R103) -/

theorem sdc_of_request {i : Instr} {tag : Byte} {h : State → State × Reply} {s u t : State} (hr : AtRouter i s u)
    (ht : request i tag h s = .next t) : t.sdc = (h u).1.sdc := by
  rw [request, request_taken hr] at ht
  cases ht
  rw [finish_sdc, answer, respond_sdc]

/-- Settles O41: the expiry and its length, then the release. -/
theorem heldCardRecordsExpireOrAreReleased : Obligations.HeldCardRecordsExpireOrAreReleased := by
  unfold Obligations.HeldCardRecordsExpireOrAreReleased
  refine ⟨⟨fun s r due hslot => ?_, fun w a b s hne hslot => ?_, fun tag name v s u t hr ht => ?_⟩, fun tag serial s =>
    ⟨fun r due hslot hser => ?_, fun r due hslot hser => ?_, fun r hslot => ?_, fun hslot => ?_⟩⟩
  · have he : recordExpires s = raise (.cardCleared .expired) (reach due { s with sdc := { s.sdc with slot := .empty } }) := by
      rw [recordExpires, hslot]
    have hworks : Works [.clock, .stripe] [6] s (recordExpires s) := by
      rw [he]
      exact (((with_sdc_works _ s).mono (by simp) (by simp)).trans ((reach_works due _).mono (by simp) (by simp))).raised
        (by simp [Notice.kind])
    refine does_of (f := recordExpires) rfl hworks (.inl (detail_of_works hworks (by decide))) ?_
    rw [he, finish_clock, finish_sdc]
    exact ⟨rfl, rfl, (standing_raise _ _).finish s (by simp [Notice.kind])⟩
  · rw [placeRecord_held hne hslot]
    exact ⟨_, rfl⟩
  · rw [exec_setParam] at ht
    exact (sdc_of_request hr ht).trans ((setParamNamed_works name v u).part (p := .stripe) (by decide))
  · refine serves_of (h := cardRelease serial) rfl fun u hu => ?_
    have hrun : cardRelease serial u = okay [] { u with sdc := { u.sdc with slot := .empty } } := by
      unfold cardRelease
      rw [hu.sdc, hslot]
      exact if_pos hser
    rw [hrun]
    refine ⟨rfl, with_sdc_works _ u, .inl rfl, ?_⟩
    rw [finish_sdc]
    rfl
  · refine refuses_of (h := cardRelease serial) rfl fun u hu => ?_
    unfold cardRelease
    rw [hu.sdc, hslot]
    exact if_neg hser
  · refine refuses_of (h := cardRelease serial) rfl fun u hu => ?_
    unfold cardRelease
    rw [hu.sdc, hslot]
  · refine refuses_of (h := cardRelease serial) rfl fun u hu => ?_
    unfold cardRelease
    rw [hu.sdc, hslot]

end Sys2Proof.Machine
end

section
/-! Proofs about the characters of a stripe track (R94 to R97). -/

namespace Sys2Proof.Machine

open Sys2Proof

/-! ## One character -/

theorem bitsValue_testBit (w v : Nat) : bitsValue ((List.range w).map fun i => v.testBit i) = v % 2 ^ w := by
  induction w generalizing v with
  | zero => simp [bitsValue, Nat.mod_one]
  | succ w ih =>
    have hshift : (fun i => v.testBit (i + 1)) = fun i => (v / 2).testBit i := by
      funext i
      rw [Nat.testBit_succ]
    have hbit : (v.testBit 0).toNat = v % 2 := by
      rw [Nat.testBit_zero]
      rcases Nat.mod_two_eq_zero_or_one v with h | h <;> simp [h]
    rw [List.range_succ_eq_map, List.map_cons, List.map_map, bitsValue, hbit]
    show v % 2 + 2 * bitsValue ((List.range w).map fun i => v.testBit (i + 1)) = _
    rw [hshift, ih, Nat.pow_succ, Nat.mul_comm (2 ^ w) 2, Nat.mod_mul]

theorem length_charBits (w v : Nat) : (charBits w v).length = w + 1 := by simp [charBits]

section
variable {w v : Nat} {rest : List Bool}

theorem take_charBits_data : (charBits w v ++ rest).take w = (List.range w).map fun i => v.testBit i := by
  rw [charBits, List.append_assoc, List.take_left' (by simp)]

/-- The value of a character written is read back (R94). -/
theorem charValue_charBits (hv : v < 2 ^ w) : charValue w (charBits w v ++ rest) = v := by
  rw [charValue, take_charBits_data, bitsValue_testBit, Nat.mod_eq_of_lt hv]

/-- A character is written with odd parity (R94). -/
theorem charParity_charBits : charParity w (charBits w v ++ rest) = true := by
  rw [charParity, List.take_left' (length_charBits w v), beq_iff_eq]
  simp only [charBits, List.count_append]
  generalize List.count true _ = n
  rcases Nat.mod_two_eq_zero_or_one n with h | h
  · simp [h]
    omega
  · simp [h]

theorem drop_charBits : (charBits w v ++ rest).drop (w + 1) = rest := List.drop_left' (length_charBits w v)

theorem charBits_fits : ¬(charBits w v ++ rest).length < w + 1 := by
  rw [List.length_append, length_charBits]
  omega

end

/-! ## The characters of a track -/

/-- The start sentinel at the front of the bits is found there (R95). -/
theorem findStart_front {w start : Nat} {rest : List Bool} (h : start < 2 ^ w) :
    findStart w start (charBits w start ++ rest) = some (charBits w start ++ rest) := by
  have hlen : w + 1 ≤ (charBits w start ++ rest).length := by
    have := charBits_fits (w := w) (v := start) (rest := rest)
    omega
  have hparity := charParity_charBits (w := w) (v := start) (rest := rest)
  have hvalue := charValue_charBits (rest := rest) h
  revert hlen hparity hvalue
  cases charBits w start ++ rest with
  | nil => simp
  | cons b bs =>
    intro hlen hparity hvalue
    rw [findStart, if_pos ⟨hlen, hparity, hvalue⟩]

/-- Each character before the end sentinel is read and the reading goes on (R96). -/
theorem readCharacters_next {e : FormatEntry} {fuel v : Nat} {acc : List Nat} {rest : List Bool} (hv : v < 2 ^ e.width)
    (hne : v ≠ e.stop) (hmax : acc.length + 1 ≤ e.maxChars) :
    readCharacters e (fuel + 1) acc (charBits e.width v ++ rest) = readCharacters e fuel (acc ++ [v]) rest := by
  rw [readCharacters, if_neg charBits_fits, charParity_charBits, charValue_charBits hv, drop_charBits]
  dsimp only
  rw [if_neg (by simp), if_neg (by rw [List.length_append, List.length_singleton]; omega), if_neg hne]

/-- The end sentinel ends the reading with the LRC check (R96, R97). -/
theorem readCharacters_stop {e : FormatEntry} {fuel : Nat} {acc : List Nat} {rest : List Bool} (hv : e.stop < 2 ^ e.width)
    (hmax : acc.length + 1 ≤ e.maxChars) :
    readCharacters e (fuel + 1) acc (charBits e.width e.stop ++ rest) =
      (lrcStatus e.width (acc ++ [e.stop]) rest, acc ++ [e.stop]) := by
  rw [readCharacters, if_neg charBits_fits, charParity_charBits, charValue_charBits hv, drop_charBits]
  dsimp only
  rw [if_neg (by simp), if_neg (by rw [List.length_append, List.length_singleton]; omega), if_pos rfl]

/-- Characters up to the end sentinel are read one after another (R96). -/
theorem readCharacters_track {e : FormatEntry} {vs : List Nat} {rest : List Bool} (hstop : e.stop < 2 ^ e.width)
    (hvs : ∀ v ∈ vs, v < 2 ^ e.width ∧ v ≠ e.stop) {fuel : Nat} (hfuel : vs.length < fuel) {acc : List Nat}
    (hmax : acc.length + vs.length + 1 ≤ e.maxChars) :
    readCharacters e fuel acc ((vs ++ [e.stop]).flatMap (charBits e.width) ++ rest) =
      (lrcStatus e.width (acc ++ (vs ++ [e.stop])) rest, acc ++ (vs ++ [e.stop])) := by
  induction vs generalizing acc fuel with
  | nil =>
    obtain ⟨fuel, rfl⟩ := Nat.exists_eq_succ_of_ne_zero (show fuel ≠ 0 by omega)
    simp only [List.nil_append, List.flatMap_singleton]
    exact readCharacters_stop hstop hmax
  | cons v vs ih =>
    obtain ⟨fuel, rfl⟩ := Nat.exists_eq_succ_of_ne_zero (show fuel ≠ 0 by omega)
    obtain ⟨hv, hne⟩ := hvs v (List.mem_cons_self ..)
    rw [List.length_cons] at hfuel hmax
    rw [List.cons_append, List.flatMap_cons, List.append_assoc, readCharacters_next hv hne (by omega),
      ih (fun x hx => hvs x (List.mem_cons_of_mem _ hx)) (by omega)
        (by rw [List.length_append, List.length_singleton]; omega)]
    simp only [List.append_assoc, List.singleton_append]

theorem foldl_xor_lt {w : Nat} {vs : List Nat} (h : ∀ v ∈ vs, v < 2 ^ w) {x : Nat} (hx : x < 2 ^ w) :
    vs.foldl (· ^^^ ·) x < 2 ^ w := by
  induction vs generalizing x with
  | nil => exact hx
  | cons v vs ih =>
    exact ih (fun y hy => h y (List.mem_cons_of_mem _ hy)) (Nat.xor_lt_two_pow hx (h v (List.mem_cons_self ..)))

/-- The LRC that a track is written with is the right one (R97). -/
theorem lrcStatus_written {w : Nat} {values : List Nat} {rest : List Bool} (h : ∀ v ∈ values, v < 2 ^ w) :
    lrcStatus w values (charBits w (values.foldl (· ^^^ ·) 0) ++ rest) = .ok := by
  have hx := foldl_xor_lt h (x := 0) (Nat.two_pow_pos w)
  rw [lrcStatus, if_neg charBits_fits, charParity_charBits, charValue_charBits hx]
  simp

theorem length_flatMap_charBits (w : Nat) (vs : List Nat) : vs.length ≤ (vs.flatMap (charBits w)).length := by
  induction vs with
  | nil => exact Nat.le_refl _
  | cons v vs ih =>
    rw [List.flatMap_cons, List.length_append, length_charBits, List.length_cons]
    omega

/-- A whole track is read back, from its start sentinel on (R96, R97). -/
theorem readTrack_written {e : FormatEntry} {middle : List Nat} {after : List Bool} (dir : Direction)
    (hstart : e.start < 2 ^ e.width) (hstop : e.stop < 2 ^ e.width) (hne : e.start ≠ e.stop)
    (hmiddle : ∀ v ∈ middle, v < 2 ^ e.width ∧ v ≠ e.stop) (hmax : middle.length + 2 ≤ e.maxChars) :
    readTrack e dir (trackBits e.width (e.start :: middle ++ [e.stop]) ++ after) =
      ⟨.ok, some dir, (e.start :: middle ++ [e.stop]).map (charByte e.width)⟩ := by
  have hvalues : ∀ v ∈ e.start :: middle, v < 2 ^ e.width ∧ v ≠ e.stop := by
    intro v hv
    rcases List.mem_cons.mp hv with rfl | hv
    · exact ⟨hstart, hne⟩
    · exact hmiddle v hv
  have hall : ∀ v ∈ e.start :: middle ++ [e.stop], v < 2 ^ e.width := by
    intro v hv
    rcases List.mem_append.mp hv with hv | hv
    · exact (hvalues v hv).1
    · rw [List.mem_singleton.mp hv]
      exact hstop
  have hfuel : (e.start :: middle).length < (trackBits e.width (e.start :: middle ++ [e.stop]) ++ after).length + 1 := by
    have hlen := length_flatMap_charBits e.width (e.start :: middle ++ [e.stop])
    rw [trackBits, List.length_append, List.length_append]
    rw [List.length_append, List.length_singleton] at hlen
    omega
  have hread := readCharacters_track (acc := []) hstop hvalues hfuel (by rw [List.length_cons, List.length_nil]; omega)
    (rest := charBits e.width ((e.start :: middle ++ [e.stop]).foldl (· ^^^ ·) 0) ++ after)
  rw [List.nil_append, lrcStatus_written hall, ← List.append_assoc] at hread
  change readCharacters e _ [] (trackBits e.width (e.start :: middle ++ [e.stop]) ++ after) = _ at hread
  rw [readTrack, hread]
  rfl

/-- Settles O40: the start sentinel stands at the front, and the characters follow it. -/
theorem stripeTracksAreReadBackAsWritten : Obligations.StripeTracksAreReadBackAsWritten := by
  unfold Obligations.StripeTracksAreReadBackAsWritten
  intro e middle after _ _ hstart hstop hne hmiddle hmax values buffer
  have hfound : findStart e.width e.start buffer = some buffer := by
    have hsplit : buffer = charBits e.width e.start ++ ((middle ++ [e.stop]).flatMap (charBits e.width) ++
        charBits e.width (values.foldl (· ^^^ ·) 0) ++ after) := by
      simp only [buffer, values, trackBits, List.cons_append, List.flatMap_cons, List.append_assoc]
    rw [hsplit]
    exact findStart_front hstart
  have hread (dir : Direction) : readTrack e dir buffer = ⟨.ok, some dir, values.map (charByte e.width)⟩ :=
    readTrack_written dir hstart hstop hne hmiddle hmax
  refine ⟨?_, fun hnone => ?_⟩
  · rw [searchTrack, hfound]
    exact hread .forward
  · rw [searchTrack, hnone, List.reverse_reverse, hfound]
    exact hread .reverse

end Sys2Proof.Machine
end

section
/-! Proofs about the till: the drawer switch, its timers and TILL_CLEAR (R110 to R117). -/

namespace Sys2Proof.Machine

open Sys2Proof

theorem with_tlc_works (x : Tlc) (s : State) : Works [.till] [] s { s with tlc := x } :=
  Works.of rfl rfl rfl rfl fun p hp => by
    cases p with
    | till => exact absurd (List.mem_singleton_self _) hp
    | _ => rfl

theorem raiseDrawer_works (a : Option Auth) (s : State) : Works [] [11] s (raiseDrawer a s) := by
  rw [raiseDrawer_eq]
  exact (Works.refl _ _ s).raised (by simp [Notice.kind])

theorem raiseDrawer_standing (a : Option Auth) (s : State) :
    Standing (raiseDrawer a s) (.drawer s.tlc.state s.tlc.state.flagged a) := by
  rw [raiseDrawer_eq]
  exact standing_raise _ _

/-! ## The end of a pulse (R111, R152) -/

theorem setClosing_opened {w : Wch} {x : Option Nat} (h : w.window = .opened x) (due : Nat) :
    w.setClosing due = { w with window := .opened (some due) } := by
  rw [Wch.setClosing, h]

theorem setClosing_detail (w : Wch) (due : Nat) : (w.setClosing due).detail = w.detail := by
  unfold Wch.setClosing
  split
  · rfl
  · rename_i h
    unfold Wch.detail Wch.bits Wch.disturbed
    rw [h]

/-- With no solenoid request waiting the end of a pulse frees PBU and sets the window's closing (R18, R152). -/
theorem reportPulseEnd_quiet {s : State} (h : s.pbu.solenoidReq = none) :
    (reportPulseEnd s).tlc = s.tlc ∧ (reportPulseEnd s).pbu.pulse = none ∧
    (reportPulseEnd s).wch = s.wch.setClosing (s.clock + s.lli.params.disturbanceSettle * 1000) := by
  unfold reportPulseEnd
  rcases examine_cases { s with
      pbu := { s.pbu with pulse := none }
      wch := s.wch.setClosing (s.clock + s.lli.params.disturbanceSettle * 1000) } with ⟨hreq, _, _⟩ | ⟨r, _, _, e⟩ | e
  · rw [show _ = s.pbu.solenoidReq from rfl, h] at hreq
    cases hreq
  · rw [e]
    exact ⟨rfl, rfl, rfl⟩
  · rw [e]
    exact ⟨rfl, rfl, rfl⟩

/-! ## The drawer switch (R110 to R115) -/

/-- What an examination of PBU keeps of the till. -/
def TillKept (s t : State) : Prop :=
  t.tlc.switchOpen = s.tlc.switchOpen ∧ t.tlc.auth = s.tlc.auth ∧ t.clock = s.clock ∧ t.lli.params = s.lli.params ∧ t.pins = s.pins

theorem examine_tillKept (s : State) : TillKept s (examine s) := by
  rcases examine_cases s with ⟨_, _, e⟩ | ⟨r, _, _, e⟩ | e <;> rw [e] <;> exact ⟨rfl, rfl, rfl, rfl, rfl⟩

/-- The drawer enters OPEN from the state `x` that the switch's opening has led to (R110 to R115). -/
theorem enterOpened_leaves {s x : State} (hk : TillKept (setSwitch true s) x) (flag : Bool) :
    (enterOpened flag x).tlc = ⟨true, none, 0, .opened flag (s.clock + s.lli.params.drawerOverdue * 1000000)⟩ ∧
    (enterOpened flag x).pins = { s.pins with drawerOpen := true } ∧
    Standing (enterOpened flag x) (.drawer (enterOpened flag x).tlc.state flag s.tlc.auth) := by
  obtain ⟨hswitch, hauth, hclock, hparams, hpins⟩ := hk
  have hstands := raiseDrawer_standing x.tlc.auth { x with tlc := { x.tlc with
    auth := none, retries := 0, state := .opened flag (x.clock + x.lli.params.drawerOverdue * 1000000) } }
  refine ⟨?_, hpins, ?_⟩
  · show (⟨x.tlc.switchOpen, none, 0, .opened flag (x.clock + x.lli.params.drawerOverdue * 1000000)⟩ : Tlc) = _
    rw [hswitch, hclock, hparams]
    rfl
  · have hx : x.tlc.auth = s.tlc.auth := hauth
    rw [hx] at hstands
    have he : enterOpened flag x = raiseDrawer s.tlc.auth { x with tlc := { x.tlc with
        auth := none, retries := 0, state := .opened flag (x.clock + x.lli.params.drawerOverdue * 1000000) } } := by
      rw [enterOpened, hx]
    rw [he]
    exact hstands

theorem enterOpened_works (flag : Bool) (x : State) : Works [.till] [11] x (enterOpened flag x) :=
  ((with_tlc_works _ x).mono (by simp) (by simp)).trans ((raiseDrawer_works _ _).mono (by simp) (by simp))

theorem setSwitch_works (isOpen : Bool) (s : State) : Works [.pins, .till] [] s (setSwitch isOpen s) :=
  Works.of rfl rfl rfl rfl fun p hp => by
    cases p with
    | pins => exact absurd (by simp) hp
    | till => exact absurd (by simp) hp
    | _ => rfl

theorem drawerOut_works (s : State) : Works (.till :: s.switchParts) [11] s (drawerOut s) := by
  cases hs : s.tlc.state with
  | waitGrant =>
    simp only [drawerOut, State.switchParts, hs]
    exact ((withdrawSolenoid_works s).mono (by simp) (by simp)).trans
      ((enterOpened_works false _).mono (by simp) (by simp))
  | pulsing d =>
    simp only [drawerOut, State.switchParts, hs]
    refine ((reportPulseEnd_works s).mono (fun p hp => ?_) (by simp)).trans
      ((enterOpened_works false _).mono (by simp) (by simp))
    unfold State.grantParts at hp
    split at hp <;> simp at hp ⊢ <;> tauto
  | opened u d =>
    simp only [drawerOut, hs]
    exact Works.refl _ _ s
  | overdue u =>
    simp only [drawerOut, hs]
    exact Works.refl _ _ s
  | _ =>
    simp only [drawerOut, State.switchParts, hs]
    exact enterOpened_works _ s

/-- Settles O43: the switch opening from each state, and closing. -/
theorem drawerSwitchMovesTheDrawer : Obligations.DrawerSwitchMovesTheDrawer := by
  unfold Obligations.DrawerSwitchMovesTheDrawer
  refine fun s => ⟨fun hsw hopen hover => ?_, fun hsw hstate => ?_⟩
  · have he : (if s.tlc.switchOpen then s else drawerOut (setSwitch true s)) = drawerOut (setSwitch true s) := by
      rw [hsw]
      rfl
    refine does_of (f := fun s => if s.tlc.switchOpen then s else drawerOut (setSwitch true s)) rfl ?_ (.inr (by simp)) ?_ <;>
      rw [he]
    · have hout := drawerOut_works (setSwitch true s)
      exact ((setSwitch_works true s).mono (fun p hp => List.mem_append_left _ hp) (by simp)).trans
        (hout.mono (fun p hp => by simp only [List.mem_cons, List.mem_append, List.not_mem_nil, or_false] at hp ⊢; tauto) (by simp))
    · intro flag
      rw [finish_tlc, finish_pins, finish_pbu, finish_wch]
      have hleaves {x : State} (hx : drawerOut (setSwitch true s) = enterOpened flag x)
          (hk : TillKept (setSwitch true s) x) (hrest : (s.tlc.state = .waitGrant → x.pbu.solenoidReq = none) ∧
            (∀ d y, s.tlc.state = .pulsing d → s.pbu.solenoidReq = none → s.wch.window = .opened y →
              x.pbu.pulse = none ∧ x.wch.window = .opened (some (s.clock + s.lli.params.disturbanceSettle * 1000)))) := by
        obtain ⟨htlc, hpins, hnote⟩ := enterOpened_leaves hk flag
        rw [← hx] at htlc hpins hnote
        have hpbu : (drawerOut (setSwitch true s)).pbu = x.pbu := by rw [hx]; rfl
        have hwch : (drawerOut (setSwitch true s)).wch = x.wch := by rw [hx]; rfl
        rw [← hpbu, ← hwch] at hrest
        exact And.intro htlc (And.intro hpins (And.intro (hnote.finish s (by simp [Notice.kind])) hrest))
      cases hstate : s.tlc.state with
      | closed =>
        have hflag : flag = s.tlc.auth.isNone := by
          show decide _ = _
          cases s.tlc.auth <;> simp [hstate]
        have h := hleaves (x := setSwitch true s) (by rw [hflag, drawerOut]; simp [setSwitch, hstate])
          ⟨rfl, rfl, rfl, rfl, rfl⟩ (by simp [hstate])
        rw [hstate] at h
        exact h
      | waitGrant =>
        have hflag : flag = false := by simp [flag, hstate]
        have h := hleaves (x := withdrawSolenoid (setSwitch true s)) (by rw [hflag, drawerOut]; simp [setSwitch, hstate])
          (examine_tillKept _) (by simp [hstate, withdrawSolenoid_req])
        rw [hstate] at h
        exact h
      | pulsing d =>
        have hflag : flag = false := by simp [flag, hstate]
        have h := hleaves (x := reportPulseEnd (setSwitch true s)) (by rw [hflag, drawerOut]; simp [setSwitch, hstate])
          (examine_tillKept _) ⟨(by simp [hstate]), fun d y _ hreq hwin => by
            obtain ⟨_, hpulse, hwch⟩ := reportPulseEnd_quiet (s := setSwitch true s) hreq
            exact ⟨hpulse, by rw [hwch, setClosing_opened (w := (setSwitch true s).wch) hwin]; rfl⟩⟩
        rw [hstate] at h
        exact h
      | confirming d =>
        have hflag : flag = false := by simp [flag, hstate]
        have h := hleaves (x := setSwitch true s) (by rw [hflag, drawerOut]; simp [setSwitch, hstate])
          ⟨rfl, rfl, rfl, rfl, rfl⟩ (by simp [hstate])
        rw [hstate] at h
        exact h
      | jammed =>
        have hflag : flag = false := by simp [flag, hstate]
        have h := hleaves (x := setSwitch true s) (by rw [hflag, drawerOut]; simp [setSwitch, hstate])
          ⟨rfl, rfl, rfl, rfl, rfl⟩ (by simp [hstate])
        rw [hstate] at h
        exact h
      | opened u d => exact absurd hstate (hopen u d)
      | overdue u => exact absurd hstate (hover u)
  · let shut : State := { setSwitch false s with tlc := { s.tlc with switchOpen := false, state := .closed } }
    have he : (if s.tlc.switchOpen then drawerIn (setSwitch false s) else s) = raiseDrawer none shut := by
      rw [hsw, drawerIn]
      rcases hstate with ⟨u, d, h⟩ | ⟨u, h⟩ <;> simp [setSwitch, h, shut]
    have hworks : Works [.pins, .till] [11] s (raiseDrawer none shut) :=
      ((setSwitch_works false s).mono (by simp) (by simp)).trans
        (((with_tlc_works _ (setSwitch false s)).mono (by simp) (by simp)).trans ((raiseDrawer_works none shut).mono (by simp) (by simp)))
    refine does_of (f := fun s => if s.tlc.switchOpen then drawerIn (setSwitch false s) else s) rfl
      (by rw [he]; exact hworks) (.inl (by rw [he]; exact detail_of_works hworks (by decide))) ?_
    rw [he, finish_tlc, finish_pins]
    exact ⟨rfl, rfl, (raiseDrawer_standing none shut).finish s (by simp [Notice.kind])⟩

/-! ## The timers and TILL_CLEAR (R111, R112, R114, R117) -/

/-- Settles O44: the pulse, confirm and overdue timers, then TILL_CLEAR. -/
theorem drawerTimersAndTillClear : Obligations.DrawerTimersAndTillClear := by
  unfold Obligations.DrawerTimersAndTillClear
  refine ⟨fun s due hs hreq => ?_, fun s due hs => ⟨fun hr => ?_, fun hr hheld => ?_, fun hr hw hcal harb hpulse hsum => ?_⟩,
    fun s u due hs => ?_, fun tag s => ⟨fun hs => ?_, fun hs ha => ?_, fun ⟨hjam, hclosed⟩ => ?_⟩⟩
  · let ended : State := { reach due s with
      tlc := { s.tlc with state := .confirming (max s.clock due + s.lli.params.drawerConfirm * 1000) } }
    have he : pulseExpires s = reportPulseEnd ended := by
      rw [pulseExpires, hs]
      rfl
    obtain ⟨htlc, hpulse, hwch⟩ := reportPulseEnd_quiet (s := ended) hreq
    have hworks := reportPulseEnd_works ended
    have hclock : (reportPulseEnd ended).clock = max s.clock due := hworks.part (p := .clock) (by
      unfold State.grantParts
      split <;> decide)
    refine does_of (f := pulseExpires) rfl ?_ (.inr (by simp)) ?_ <;> rw [he]
    · refine ((reach_works due s).mono (by simp) (by simp)).trans (((with_tlc_works _ (reach due s)).mono (by simp) (by simp)).trans
        (hworks.mono (fun p hp => ?_) (by simp)))
      unfold State.grantParts at hp
      split at hp <;> simp at hp ⊢ <;> tauto
    · rw [finish_clock, finish_pbu, finish_tlc, finish_wch, hclock, htlc]
      refine ⟨rfl, hpulse, rfl, fun x hx => ?_⟩
      rw [hwch, setClosing_opened (w := ended.wch) hx]
      rfl
  · let jammed : State := { reach due s with tlc := { s.tlc with state := .jammed } }
    have he : confirmExpires s = raiseDrawer s.tlc.auth jammed := by
      rw [confirmExpires, hs]
      exact if_pos hr
    have hworks : Works [.clock, .till] [11] s (raiseDrawer s.tlc.auth jammed) :=
      ((reach_works due s).mono (by simp) (by simp)).trans (((with_tlc_works _ (reach due s)).mono (by simp) (by simp)).trans
        ((raiseDrawer_works _ jammed).mono (by simp) (by simp)))
    refine does_of (f := confirmExpires) rfl (by rw [he]; exact hworks)
      (.inl (by rw [he]; exact detail_of_works hworks (by decide))) ?_
    rw [he, finish_clock, finish_tlc]
    exact ⟨rfl, rfl, (raiseDrawer_standing _ jammed).finish s (by simp [Notice.kind])⟩
  · have he : confirmExpires s = { reach due s with tlc := { s.tlc with state := .closed } } := by
      have hh : (reach due s).held = true := (held_iff _).mpr hheld
      rw [confirmExpires, hs]
      exact (if_neg (by show ¬3 ≤ s.tlc.retries; omega)).trans (towardGrant_held hh)
    have hworks : Works [.clock, .till] [] s (confirmExpires s) := by
      rw [he]
      exact ((reach_works due s).mono (by simp) (by simp)).trans ((with_tlc_works _ (reach due s)).mono (by simp) (by simp))
    refine does_of (f := confirmExpires) rfl hworks (.inl (detail_of_works hworks (by decide))) ?_
    rw [finish_tlc, he]
  · let waiting : State := { reach due s with tlc := { s.tlc with state := .waitGrant } }
    have he : confirmExpires s = grantSolenoid { waiting with pbu := { s.pbu with solenoidReq := some (max s.clock due) } } := by
      have hh : (reach due s).held = false := Bool.eq_false_iff.mpr fun hn => by
        rcases (held_iff _).mp hn with hn | hn
        · have hn' : s.pbu.warning = true := hn
          rw [hw] at hn'
          cases hn'
        · exact hcal hn
      rw [confirmExpires, hs]
      refine (if_neg (by show ¬3 ≤ s.tlc.retries; omega)).trans ((towardGrant_free hh).trans ?_)
      exact placeSolenoid_fits (s := waiting) harb hpulse hsum
    refine does_of (f := confirmExpires) rfl ?_ (.inr (by simp)) ?_ <;> rw [he]
    · have hplaced : Works [.clock, .till, .budget, .weighing] [2] s
          { waiting with pbu := { s.pbu with solenoidReq := some (max s.clock due) } } :=
        Works.mono (ps := [.clock, .till, .budget]) (ks := []) (Works.of rfl rfl rfl rfl fun p hp => by
          cases p with
          | clock => exact absurd (by simp) hp
          | till => exact absurd (by simp) hp
          | budget => exact absurd (by simp) hp
          | _ => rfl) (by simp) (by simp)
      exact hplaced.trans ((grantSolenoid_works _).mono (by simp) (by simp))
    · rw [finish_clock, finish_tlc, finish_pbu, finish_wch]
      exact ⟨rfl, rfl, rfl⟩
  · let late : State := { reach due s with tlc := { s.tlc with state := .overdue u } }
    have he : overdueExpires s = raiseDrawer none late := by
      rw [overdueExpires, hs]
      rfl
    have hworks : Works [.clock, .till] [11] s (raiseDrawer none late) :=
      ((reach_works due s).mono (by simp) (by simp)).trans (((with_tlc_works _ (reach due s)).mono (by simp) (by simp)).trans
        ((raiseDrawer_works _ late).mono (by simp) (by simp)))
    refine does_of (f := overdueExpires) rfl (by rw [he]; exact hworks)
      (.inl (by rw [he]; exact detail_of_works hworks (by decide))) ?_
    rw [he, finish_clock, finish_tlc]
    exact ⟨rfl, rfl, (raiseDrawer_standing _ late).finish s (by simp [Notice.kind])⟩
  · refine serves_of (h := tillClear) rfl fun u hu => ?_
    have he : tillClear u = okay [] (raiseDrawer none (dropAuth u)) := by
      rw [tillClear, hu.tlc, hs]
    have hworks : Works [.till] [11] u (raiseDrawer none (dropAuth u)) :=
      ((with_tlc_works _ u).mono (by simp) (by simp)).trans ((raiseDrawer_works none _).mono (by simp) (by simp))
    rw [he]
    refine ⟨rfl, hworks, .inl (detail_of_works hworks (by decide)), ?_, notified_respond (raiseDrawer_standing none (dropAuth u)) (by simp [Notice.kind])⟩
    rw [finish_tlc, respond_tlc]
    rfl
  · refine serves_of (h := tillClear) rfl fun u hu => ?_
    have he : tillClear u = okay [] (dropAuth u) := by
      rw [tillClear, hu.tlc, hs]
      exact if_pos (Option.isSome_iff_ne_none.mpr ha)
    rw [he]
    refine ⟨rfl, with_tlc_works _ u, .inl rfl, ?_⟩
    rw [finish_tlc, respond_tlc]
    have hclosed : u.tlc.state = .closed := by rw [hu.tlc, hs]
    show ({ u.tlc with auth := none, retries := 0, state := .closed } : Tlc) = _
    rw [← hclosed]
  · refine refuses_of (h := tillClear) rfl fun u hu => ?_
    rw [tillClear, hu.tlc]
    cases hs : s.tlc.state with
    | closed =>
      refine if_neg fun ha => hclosed ⟨hs, Option.isSome_iff_ne_none.mp ha⟩
    | jammed => exact absurd hs hjam
    | _ => rfl

end Sys2Proof.Machine
end

section
/-! Proofs about the printer: what going on does in each case (R135 to R138), and the rows, steps and feeds (R132, R133). -/

namespace Sys2Proof.Machine

open Sys2Proof

/-! ## The halt tests (R135, R137, R138) -/

/-- A kept mark or the supply warning halts the printer at the next halt test. -/
def State.Halts (s : State) : Prop := s.pen.paperMark = true ∨ s.pen.coverMark = true ∨ s.pbu.warning = true

/-- No halt test acts. -/
def State.Unhalted (s : State) : Prop := s.pen.paperMark = false ∧ s.pen.coverMark = false ∧ s.pbu.warning = false

/-- A halt mark is kept. -/
def State.marked (s : State) : Bool := s.pen.paperMark || s.pen.coverMark

/-- The halt that the tests lead to: a mark first, then the supply warning. -/
def haltAt (s : State) : State := if s.marked then actMark s else enterHalt .supply s

theorem haltTest_halts {s : State} (h : s.Halts) : haltTest s = some (haltAt s) := by
  unfold haltTest haltAt State.marked
  split
  · rfl
  · rename_i hm
    rw [Bool.or_eq_true, not_or] at hm
    obtain ⟨hp, hc⟩ := hm
    rcases h with h | h | h
    · exact absurd h hp
    · exact absurd h hc
    · exact if_pos h

theorem haltTest_unhalted {s : State} (h : s.Unhalted) : haltTest s = none := by
  obtain ⟨hp, hc, hw⟩ := h
  simp [haltTest, hp, hc, hw]

theorem goOn_halts {s : State} (h : s.Halts) : goOn s = haltAt s := by
  unfold goOn goOnFrom
  rw [haltTest_halts h]

theorem haltAt_works (s : State) : Works (.printer :: s.tableParts) [12, 13] s (haltAt s) := by
  unfold haltAt
  split
  · exact actMark_works s
  · exact enterHalt_works _ s

theorem enterHalt_standing (r : HaltReason) (s : State) : Standing (enterHalt r s) (.printer (.halted r) s.pen.nearEnd) := by
  have h : Standing (raisePrinter (setPrinter (.halted r) s)) (.printer (.halted r) s.pen.nearEnd) := standing_raise _ _
  exact h.swapPrintTables (by simp [Notice.kind])

/-- The reason of the halt that the tests lead to. -/
def State.haltReason (s : State) : HaltReason :=
  if s.pen.coverMark then .coverOpen else if s.pen.paperMark then .paperOut else .supply

theorem haltAt_pen (s : State) :
    (haltAt s).pen = { s.pen with
      state := .halted s.haltReason, paperMark := false, coverMark := false
      queue := if s.marked then restartHead s.pen.queue else s.pen.queue } := by
  unfold haltAt
  cases hm : s.marked with
  | true =>
    have hr : s.haltReason = if s.pen.coverMark then .coverOpen else .paperOut := by
      unfold State.haltReason
      unfold State.marked at hm
      cases hc : s.pen.coverMark <;> simp_all
    rw [if_pos rfl, if_pos rfl, actMark, enterHalt_pen, hr]
  | false =>
    obtain ⟨hp, hc⟩ := (Bool.or_eq_false_iff (x := s.pen.paperMark) (y := s.pen.coverMark)).mp hm
    rw [if_neg (by decide), if_neg (by decide), enterHalt_pen, State.haltReason]
    simp [hp, hc]

theorem haltAt_standing (s : State) : Standing (haltAt s) (.printer (.halted s.haltReason) s.pen.nearEnd) := by
  unfold haltAt
  cases hm : s.marked with
  | true =>
    have hr : s.haltReason = if s.pen.coverMark then .coverOpen else .paperOut := by
      unfold State.haltReason
      unfold State.marked at hm
      cases hc : s.pen.coverMark <;> simp_all
    rw [if_pos rfl, hr]
    exact enterHalt_standing _ _
  | false =>
    obtain ⟨hp, hc⟩ := (Bool.or_eq_false_iff (x := s.pen.paperMark) (y := s.pen.coverMark)).mp hm
    have hr : s.haltReason = .supply := by simp [State.haltReason, hp, hc]
    rw [if_neg (by decide), hr]
    exact enterHalt_standing _ s

theorem haltedFor_haltAt {s x : State} (a : State) (hc : x.pen.coverMark = s.pen.coverMark)
    (hp : x.pen.paperMark = s.pen.paperMark) (hn : x.pen.nearEnd = s.pen.nearEnd) : HaltedFor s (finish a (haltAt x)) := by
  have hr : s.haltReason = x.haltReason := by rw [State.haltReason, State.haltReason, hc, hp]
  have hstands := (haltAt_standing x).finish a (by simp [Notice.kind])
  rw [← hr, hn] at hstands
  unfold HaltedFor
  rw [finish_pen, haltAt_pen, ← hr]
  exact ⟨rfl, rfl, rfl, hstands⟩

theorem restartHead_rowsDone {q q' : List QueueEntry} {p : PrintLine} (h : restartHead q = .line p :: q') :
    p.rowsDone = 0 := by
  unfold restartHead at h
  split at h
  · cases h
    rfl
  · rename_i hne
    exact absurd h (hne p q')

/-! ## What the printer does when no test halts it (R135) -/

section

variable {s : State}

theorem goOnFrom_feeding (fuel : Nat) (h : s.Unhalted) (hf : 0 < s.pen.feed) :
    goOnFrom (fuel + 1) s = setPrinter (.feeding (s.clock + 1000)) s := by
  unfold goOnFrom
  rw [haltTest_unhalted h]
  exact if_pos hf

theorem goOnFrom_cuts (fuel : Nat) (h : s.Unhalted) (hf : s.pen.feed = 0) (ho : s.pen.owed ≠ none) :
    goOnFrom (fuel + 1) s = startCut s := by
  unfold goOnFrom
  rw [haltTest_unhalted h]
  exact (if_neg (by omega)).trans (if_pos (Option.isSome_iff_ne_none.mpr ho))

theorem goOnFrom_feedEntry (fuel : Nat) {rows : Nat} {q : List QueueEntry} (h : s.Unhalted) (hf : s.pen.feed = 0)
    (ho : s.pen.owed = none) (hq : s.pen.queue = .feed rows :: q) :
    goOnFrom (fuel + 1) s = goOnFrom fuel (composerFill (takeFeed rows q s)) := by
  simp [goOnFrom, haltTest_unhalted h, hf, ho, hq]

theorem goOnFrom_cutEntry (fuel : Nat) {q : List QueueEntry} (h : s.Unhalted) (hf : s.pen.feed = 0)
    (ho : s.pen.owed = none) (hq : s.pen.queue = .cut :: q) :
    goOnFrom (fuel + 1) s = goOnFrom fuel (composerFill (takeCut q s)) := by
  simp [goOnFrom, haltTest_unhalted h, hf, ho, hq]

theorem goOn_line {l : PrintLine} {q : List QueueEntry} (h : s.Unhalted) (hf : s.pen.feed = 0) (ho : s.pen.owed = none)
    (hq : s.pen.queue = .line l :: q) : goOn s = if s.pen.headHot then setPrinter .hotWait s else startRow l s := by
  simp [goOn, goOnFrom, haltTest_unhalted h, hf, ho, hq]

theorem goOn_rests (h : s.Unhalted) (hf : s.pen.feed = 0) (ho : s.pen.owed = none) (hq : s.pen.queue = []) :
    goOn s = swapPrintTables (setPrinter .idle s) := by
  simp [goOn, goOnFrom, haltTest_unhalted h, hf, ho, hq]

end

/-! ## What going on keeps of the printer -/

/-- The sensors, the warning and the paper fed are kept, and no halt mark arises. -/
def SensorsKept (s t : State) : Prop :=
  (t.pen.nearEnd = s.pen.nearEnd ∧ t.pen.paperOut = s.pen.paperOut ∧ t.pen.coverOpen = s.pen.coverOpen ∧
   t.pen.headHot = s.pen.headHot ∧ t.pen.home = s.pen.home ∧ t.pen.sinceGlyph = s.pen.sinceGlyph) ∧
  (s.pen.paperMark = false → t.pen.paperMark = false) ∧ (s.pen.coverMark = false → t.pen.coverMark = false) ∧
  t.pbu.warning = s.pbu.warning

theorem SensorsKept.trans {s t u : State} (h : SensorsKept s t) (h' : SensorsKept t u) : SensorsKept s u := by
  obtain ⟨⟨hn, hp, hc, hh, ho, hg⟩, hpm, hcm, hw⟩ := h
  obtain ⟨⟨hn', hp', hc', hh', ho', hg'⟩, hpm', hcm', hw'⟩ := h'
  exact ⟨⟨hn'.trans hn, hp'.trans hp, hc'.trans hc, hh'.trans hh, ho'.trans ho, hg'.trans hg⟩,
    fun h => hpm' (hpm h), fun h => hcm' (hcm h), hw'.trans hw⟩

theorem setPrinter_sensors (st : PrinterState) (s : State) : SensorsKept s (setPrinter st s) :=
  ⟨⟨rfl, rfl, rfl, rfl, rfl, rfl⟩, id, id, rfl⟩

theorem swapPrintTables_pbu (s : State) : (swapPrintTables s).pbu = s.pbu :=
  (swapPrintTables_works s).part (p := .budget) (by
    unfold State.tableParts
    split <;> decide)

theorem swapPrintTables_sensors (s : State) : SensorsKept s (swapPrintTables s) := by
  unfold SensorsKept
  rw [swapPrintTables_pen, swapPrintTables_pbu]
  exact ⟨⟨rfl, rfl, rfl, rfl, rfl, rfl⟩, id, id, rfl⟩

theorem haltAt_sensors (s : State) : SensorsKept s (haltAt s) := by
  have hw : (haltAt s).pbu = s.pbu := (haltAt_works s).part (p := .budget) (by
    unfold State.tableParts
    split <;> decide)
  unfold SensorsKept
  rw [haltAt_pen, hw]
  exact ⟨⟨rfl, rfl, rfl, rfl, rfl, rfl⟩, fun _ => rfl, fun _ => rfl, rfl⟩

theorem composerFill_sensors (s : State) : SensorsKept s (composerFill s) := by
  unfold composerFill
  split <;> exact ⟨⟨rfl, rfl, rfl, rfl, rfl, rfl⟩, id, id, rfl⟩

theorem examine_sensors (s : State) : SensorsKept s (examine s) := by
  rcases examine_cases s with ⟨_, _, e⟩ | ⟨r, _, _, e⟩ | e <;> rw [e] <;> exact ⟨⟨rfl, rfl, rfl, rfl, rfl, rfl⟩, id, id, rfl⟩

theorem startRow_sensors (l : PrintLine) (s : State) : SensorsKept s (startRow l s) := by
  unfold startRow
  split
  · exact setPrinter_sensors _ s
  · rename_i p rest _
    exact (setPrinter_sensors (.printing rest (.waiting p)) s).trans (SensorsKept.trans
      (t := { setPrinter (.printing rest (.waiting p)) s with pbu := { s.pbu with phaseReq := some ⟨true, p.cost, s.clock⟩ } })
      ⟨⟨rfl, rfl, rfl, rfl, rfl, rfl⟩, id, id, rfl⟩ (examine_sensors _))

theorem State.halts_or_unhalted (s : State) : s.Halts ∨ s.Unhalted := by
  unfold State.Halts State.Unhalted
  cases s.pen.paperMark <;> cases s.pen.coverMark <;> cases s.pbu.warning <;> simp

theorem goOnFrom_sensors (fuel : Nat) (s : State) : SensorsKept s (goOnFrom fuel s) := by
  induction fuel generalizing s with
  | zero => exact ⟨⟨rfl, rfl, rfl, rfl, rfl, rfl⟩, id, id, rfl⟩
  | succ fuel ih =>
    rcases s.halts_or_unhalted with h | h
    · have he : goOnFrom (fuel + 1) s = haltAt s := by
        unfold goOnFrom
        rw [haltTest_halts h]
      rw [he]
      exact haltAt_sensors s
    · by_cases hf : 0 < s.pen.feed
      · rw [goOnFrom_feeding _ h hf]
        exact setPrinter_sensors _ s
      · by_cases ho : s.pen.owed = none
        · have hf0 : s.pen.feed = 0 := by omega
          have htaken (t : State) (ht : SensorsKept s t) : SensorsKept s (goOnFrom fuel (composerFill t)) :=
            ht.trans ((composerFill_sensors t).trans (ih _))
          cases hq : s.pen.queue with
          | nil =>
            have he : goOnFrom (fuel + 1) s = swapPrintTables (setPrinter .idle s) := by
              simp [goOnFrom, haltTest_unhalted h, hf0, ho, hq]
            rw [he]
            exact (setPrinter_sensors .idle s).trans (swapPrintTables_sensors _)
          | cons e q =>
            cases e with
            | feed rows =>
              rw [goOnFrom_feedEntry _ h hf0 ho hq]
              exact htaken _ ⟨⟨rfl, rfl, rfl, rfl, rfl, rfl⟩, id, id, rfl⟩
            | cut =>
              rw [goOnFrom_cutEntry _ h hf0 ho hq]
              exact htaken _ ⟨⟨rfl, rfl, rfl, rfl, rfl, rfl⟩, id, id, rfl⟩
            | line l =>
              have he : goOnFrom (fuel + 1) s = if s.pen.headHot then setPrinter .hotWait s else startRow l s := by
                simp [goOnFrom, haltTest_unhalted h, hf0, ho, hq]
              rw [he]
              split
              · exact setPrinter_sensors _ s
              · exact startRow_sensors l s
        · rw [goOnFrom_cuts _ h (by omega) ho]
          exact setPrinter_sensors _ s

theorem goOn_sensors (s : State) : SensorsKept s (goOn s) := goOnFrom_sensors _ s

/-! ## Row phases and paper steps (R132, R153) -/

theorem examine_queue (s : State) : (examine s).pen.queue = s.pen.queue := by
  rcases examine_cases s with ⟨_, _, e⟩ | ⟨r, _, _, e⟩ | e <;> rw [e] <;> rfl

/-- What an examination keeps of the printer and of the warning. -/
def PrintKept (s t : State) : Prop :=
  t.pen = { s.pen with state := t.pen.state } ∧ t.pbu.warning = s.pbu.warning ∧ t.clock = s.clock ∧
  t.lli.params = s.lli.params ∧ t.tbs = s.tbs ∧ t.sru = s.sru

theorem PrintKept.trans {s t u : State} (h : PrintKept s t) (h' : PrintKept t u) : PrintKept s u := by
  obtain ⟨hpen, hw, hc, hp, ht, hr⟩ := h
  obtain ⟨hpen', hw', hc', hp', ht', hr'⟩ := h'
  refine ⟨?_, hw'.trans hw, hc'.trans hc, hp'.trans hp, ht'.trans ht, hr'.trans hr⟩
  rw [hpen', hpen]

theorem setPrinter_printKept (st : PrinterState) (s : State) : PrintKept s (setPrinter st s) := ⟨rfl, rfl, rfl, rfl, rfl, rfl⟩

theorem examine_printKept (s : State) : PrintKept s (examine s) := by
  rcases examine_cases s with ⟨_, _, e⟩ | ⟨r, _, _, e⟩ | e <;> rw [e] <;> exact ⟨rfl, rfl, rfl, rfl, rfl, rfl⟩

theorem reportRowEnd_printKept (s : State) : PrintKept s (reportRowEnd s) :=
  PrintKept.trans (t := { s with pbu := { s.pbu with arbiter := none } }) ⟨rfl, rfl, rfl, rfl, rfl, rfl⟩ (examine_printKept _)

theorem startRow_printKept (l : PrintLine) (s : State) : PrintKept s (startRow l s) := by
  unfold startRow
  split
  · exact setPrinter_printKept _ s
  · rename_i p rest _
    exact PrintKept.trans (t := setPrinter (.printing rest (.waiting p)) s) (setPrinter_printKept _ s)
      (PrintKept.trans (t := { setPrinter (.printing rest (.waiting p)) s with
        pbu := { s.pbu with phaseReq := some ⟨true, p.cost, s.clock⟩ } }) ⟨rfl, rfl, rfl, rfl, rfl, rfl⟩ (examine_printKept _))

/-- While the arbiter holds a row, a later phase of it is granted at once where the budget has room, and else waits (R151). -/
theorem placePhase_next {s : State} (q : Phase) (harb : s.pbu.arbiter ≠ none) (hpulse : s.pbu.pulse = none) :
    placePhase false q.cost s =
      if grantSum s.pbu.grants + q.cost ≤ 64 then
        grantPhase ⟨false, q.cost, s.clock⟩ { s with pbu := { s.pbu with phaseReq := some ⟨false, q.cost, s.clock⟩ } }
      else { s with pbu := { s.pbu with phaseReq := some ⟨false, q.cost, s.clock⟩ } } := by
  have hsome : s.pbu.arbiter.isSome = true := Option.isSome_iff_ne_none.mpr harb
  have hnone : s.pbu.arbiter.isNone = false := by
    rw [← Option.not_isSome, hsome]
    rfl
  by_cases hfit : grantSum s.pbu.grants + q.cost ≤ 64 <;>
    simp [placePhase, examine, examinePhase, Pbu.solenoidFits, Pbu.phaseFits, hsome, hnone, hpulse, budget, hfit]

theorem with_pbu_works (x : Pbu) (s : State) : Works [.budget] [] s { s with pbu := x } :=
  Works.of rfl rfl rfl rfl fun p hp => by
    cases p with
    | budget => exact absurd (List.mem_singleton_self _) hp
    | _ => rfl

theorem with_pen_works (x : Pen) (s : State) : Works [.printer] [] s { s with pen := x } :=
  Works.of rfl rfl rfl rfl fun p hp => by
    cases p with
    | printer => exact absurd (List.mem_singleton_self _) hp
    | _ => rfl

/-- A strobe has ended, and the row goes on. -/
theorem phaseEnds_eq {s : State} {rest : List Phase} {p : Phase} {due : Nat}
    (h : s.pen.state = .printing rest (.strobing p due)) :
    phaseEnds s = nextPhase rest { reach due s with pbu := { s.pbu with strobe := false } } := by
  rw [phaseEnds, h]
  rfl

/-! ## The end of a row (R129, R133) -/

theorem markPrinted_unprinted (o : Sale) (n : Nat) : (o.markPrinted n).unprinted = o.unprinted := by
  simp only [Sale.markPrinted, Sale.edit, Sale.unprinted, List.map_map, Sale.mk.injEq, and_true, true_and]
  apply List.map_congr_left
  intro l _
  simp only [Function.comp_apply]
  split <;> rfl

theorem editTagged_unprinted (u : Sru) (tag n : Nat) :
    (u.editTagged tag fun o => o.markPrinted n).unprinted = u.unprinted := by
  have hmap (slot : Option Sale) :
      (slot.map fun o => if o.tag = tag then o.markPrinted n else o).map Sale.unprinted = slot.map Sale.unprinted := by
    cases slot with
    | none => rfl
    | some o =>
      simp only [Option.map_some]
      split
      · rw [markPrinted_unprinted]
      · rfl
  unfold Sru.editTagged Sru.unprinted
  simp only [hmap]

theorem linePrinted_unprinted (l : PrintLine) (s : State) : (linePrinted l s).sru.unprinted = s.sru.unprinted := by
  unfold linePrinted
  split
  · split
    · rfl
    · exact editTagged_unprinted ..
  · rfl

theorem linePrinted_pen (l : PrintLine) (s : State) : (linePrinted l s).pen = s.pen := by
  unfold linePrinted
  split
  · split <;> rfl
  · rfl

theorem linePrinted_works (l : PrintLine) (s : State) : Works [.sale] [] s (linePrinted l s) := by
  have hsru (x : Sru) : Works [.sale] [] s { s with sru := x } := Works.of rfl rfl rfl rfl fun p hp => by
    cases p with
    | sale => exact absurd (List.mem_singleton_self _) hp
    | _ => rfl
  unfold linePrinted
  split
  · split
    · exact Works.refl _ _ s
    · exact hsru _
  · exact Works.refl _ _ s

/-- The composer changes the queue and its context alone of the printer. -/
theorem composerFill_pen (s : State) :
    (composerFill s).pen = { s.pen with queue := (composerFill s).pen.queue, context := (composerFill s).pen.context } := by
  unfold composerFill
  split <;> rfl

theorem composerFill_pbu (s : State) : (composerFill s).pbu = s.pbu :=
  (composerFill_works s).part (p := .budget) (by decide)

theorem composerFill_clock (s : State) : (composerFill s).clock = s.clock :=
  (composerFill_works s).part (p := .clock) (by decide)

theorem composerFill_tbs (s : State) : (composerFill s).tbs = s.tbs :=
  (composerFill_works s).part (p := .tables) (by decide)

theorem lineLeaves_works (l : PrintLine) (q : List QueueEntry) (s : State) :
    Works [.sale, .printer] [] s (lineLeaves l q s) :=
  ((with_pen_works _ s).mono (by simp) (by simp)).trans
    (((linePrinted_works l _).mono (by simp) (by simp)).trans ((composerFill_works _).mono (by simp) (by simp)))

theorem lineLeaves_unprinted (l : PrintLine) (q : List QueueEntry) (s : State) :
    (lineLeaves l q s).sru.unprinted = s.sru.unprinted := by
  rw [lineLeaves, composerFill_unprinted, linePrinted_unprinted]

theorem lineLeaves_pen (l : PrintLine) (q : List QueueEntry) (s : State) :
    (lineLeaves l q s).pen = { s.pen with
      queue := (lineLeaves l q s).pen.queue, context := (lineLeaves l q s).pen.context
      feed := if l.cutAfter then 96 else min 255 (s.pen.feed + (s.lli.params.linePitch - 24))
      owed := if l.cutAfter then some l.saleTag else s.pen.owed } := by
  rw [lineLeaves, composerFill_pen, linePrinted_pen]
  unfold Pen.lineLeft
  cases l.cutAfter <;> rfl

end Sys2Proof.Machine
end

section
/-! Proofs about the printer: O46, the rows, steps and feeds that follow each other (R132, R133, R137, R138). -/

namespace Sys2Proof.Machine

open Sys2Proof

/-! ## Going on with a print line at the head -/

/-- Unhalted, with a print line at the head, the printer changes nothing of itself but its state (R135). -/
theorem goOn_line_printKept {s : State} {l : PrintLine} {q : List QueueEntry} (h : s.Unhalted)
    (hq : s.pen.queue = .line l :: q) : PrintKept s (goOn s) := by
  rcases Nat.eq_zero_or_pos s.pen.feed with hf | hf
  · by_cases ho : s.pen.owed = none
    · rw [goOn_line h hf ho hq]
      split
      · exact setPrinter_printKept _ s
      · exact startRow_printKept l s
    · rw [goOn, goOnFrom_cuts _ h hf ho]
      exact setPrinter_printKept _ s
  · rw [goOn, goOnFrom_feeding _ h hf]
    exact setPrinter_printKept _ s

/-! ## The end of a row -/

/-- The state in which a row has just ended, before it is counted. -/
def rowStepped (due : Nat) (s : State) : State := { reach due s with pen := { s.pen with sinceGlyph := 0 } }

theorem rowStepped_works (due : Nat) (s : State) : Works [.clock, .printer] [] s (rowStepped due s) :=
  ((reach_works due s).mono (by simp) (by simp)).trans ((with_pen_works _ (reach due s)).mono (by simp) (by simp))

theorem rowEnds_eq {s : State} {rest : List Phase} {due : Nat} (h : s.pen.state = .printing rest (.stepping due)) :
    rowEnds s = goOn (reportRowEnd (rowDone (rowStepped due s))) := by
  rw [rowEnds, h]
  rfl

section

variable {s : State} {l : PrintLine} {q : List QueueEntry}

theorem rowDone_more (hq : s.pen.queue = .line l :: q) (h : l.rowsDone + 1 < l.rows) :
    rowDone s = { s with pen := { s.pen with queue := .line { l with rowsDone := l.rowsDone + 1 } :: q } } := by
  unfold rowDone
  rw [hq]
  exact if_neg (by omega)

theorem rowDone_last (hq : s.pen.queue = .line l :: q) (h : l.rows ≤ l.rowsDone + 1) :
    rowDone s = lineLeaves { l with rowsDone := l.rowsDone + 1 } q s := by
  unfold rowDone
  rw [hq]
  exact if_pos h

theorem rowDone_works (hq : s.pen.queue = .line l :: q) : Works [.sale, .printer] [] s (rowDone s) := by
  rcases Nat.lt_or_ge (l.rowsDone + 1) l.rows with h | h
  · rw [rowDone_more hq h]
    exact (with_pen_works _ s).mono (by simp) (by simp)
  · rw [rowDone_last hq h]
    exact lineLeaves_works ..

theorem rowDone_unprinted (hq : s.pen.queue = .line l :: q) : (rowDone s).sru.unprinted = s.sru.unprinted := by
  rcases Nat.lt_or_ge (l.rowsDone + 1) l.rows with h | h
  · rw [rowDone_more hq h]
  · rw [rowDone_last hq h, lineLeaves_unprinted]

/-- The figures that a row's end leaves to the printer, whether or not it is the line's last. -/
theorem rowDone_pen (hq : s.pen.queue = .line l :: q) :
    (rowDone s).pen.sinceGlyph = s.pen.sinceGlyph ∧ (rowDone s).pen.paperMark = s.pen.paperMark ∧
    (rowDone s).pen.coverMark = s.pen.coverMark ∧ (rowDone s).pen.nearEnd = s.pen.nearEnd := by
  rcases Nat.lt_or_ge (l.rowsDone + 1) l.rows with h | h
  · rw [rowDone_more hq h]
    exact ⟨rfl, rfl, rfl, rfl⟩
  · rw [rowDone_last hq h, lineLeaves_pen]
    exact ⟨rfl, rfl, rfl, rfl⟩

theorem reportRowEnd_fullParts (s : State) :
    Works [.clock, .sale, .printer, .budget, .till, .weighing, .tables] [2, 12, 13] s (reportRowEnd s) :=
  (reportRowEnd_works s).mono (fun p hp => by
    unfold State.grantParts at hp
    split at hp <;> simp at hp ⊢ <;> tauto) (by simp)

theorem goOn_fullParts (s : State) :
    Works [.clock, .sale, .printer, .budget, .till, .weighing, .tables] [2, 12, 13] s (goOn s) :=
  (goOn_works s).mono (fun p hp => by
    unfold State.goParts State.grantParts State.tableParts at hp
    (repeat' split at hp) <;> simp at hp ⊢ <;> tauto) (by simp)

end

/-! ## The statement -/

/-- What stands at the end of a paper step, before the printer goes on. -/
def rowReported (due : Nat) (s : State) : State := reportRowEnd (rowDone (rowStepped due s))

section

variable {s : State} {l : PrintLine} {q : List QueueEntry} {due : Nat}

theorem rowReported_works (hq : s.pen.queue = .line l :: q) :
    Works [.clock, .sale, .printer, .budget, .till, .weighing, .tables] [2, 12, 13] s (rowReported due s) :=
  ((rowStepped_works due s).mono (by simp) (by simp)).trans
    (((rowDone_works (s := rowStepped due s) hq).mono (by simp) (by simp)).trans (reportRowEnd_fullParts _))

theorem rowReported_clock (hq : s.pen.queue = .line l :: q) : (rowReported due s).clock = max s.clock due := by
  obtain ⟨_, _, hclock, _⟩ := reportRowEnd_printKept (rowDone (rowStepped due s))
  rw [rowReported, hclock]
  exact (rowDone_works (s := rowStepped due s) hq).part (p := .clock) (by decide)

theorem rowReported_params (hq : s.pen.queue = .line l :: q) : (rowReported due s).lli.params = s.lli.params := by
  obtain ⟨_, _, _, hparams, _⟩ := reportRowEnd_printKept (rowDone (rowStepped due s))
  rw [rowReported, hparams]
  have h := congrArg Lli.params (show _ = _ from (rowDone_works (s := rowStepped due s) hq).part (p := .link) (by decide))
  exact h

theorem rowReported_unprinted (hq : s.pen.queue = .line l :: q) : (rowReported due s).sru.unprinted = s.sru.unprinted := by
  obtain ⟨_, _, _, _, _, hsru⟩ := reportRowEnd_printKept (rowDone (rowStepped due s))
  rw [rowReported, hsru]
  exact rowDone_unprinted (s := rowStepped due s) hq

theorem rowReported_warning (hq : s.pen.queue = .line l :: q) : (rowReported due s).pbu.warning = s.pbu.warning := by
  obtain ⟨_, hwarning, _⟩ := reportRowEnd_printKept (rowDone (rowStepped due s))
  rw [rowReported, hwarning]
  have h := (rowDone_works (s := rowStepped due s) hq).part (p := .budget) (by decide)
  exact congrArg Pbu.warning h

theorem rowReported_pen (hq : s.pen.queue = .line l :: q) :
    (rowReported due s).pen.sinceGlyph = 0 ∧ (rowReported due s).pen.paperMark = s.pen.paperMark ∧
    (rowReported due s).pen.coverMark = s.pen.coverMark ∧ (rowReported due s).pen.nearEnd = s.pen.nearEnd := by
  obtain ⟨hpen, _⟩ := reportRowEnd_printKept (rowDone (rowStepped due s))
  rw [rowReported, hpen]
  exact rowDone_pen (s := rowStepped due s) hq

theorem rowReported_more (hq : s.pen.queue = .line l :: q) (h : l.rowsDone + 1 < l.rows) :
    (rowReported due s).pen.queue = .line { l with rowsDone := l.rowsDone + 1 } :: q ∧
    (rowReported due s).pen.feed = s.pen.feed ∧ (rowReported due s).pen.owed = s.pen.owed := by
  obtain ⟨hpen, _⟩ := reportRowEnd_printKept (rowDone (rowStepped due s))
  rw [rowReported, hpen, rowDone_more (s := rowStepped due s) hq h]
  exact ⟨rfl, rfl, rfl⟩

theorem rowReported_last (hq : s.pen.queue = .line l :: q) (h : l.rows ≤ l.rowsDone + 1) :
    (rowReported due s).pen.feed = (if l.cutAfter then 96 else min 255 (s.pen.feed + (s.lli.params.linePitch - 24))) ∧
    (rowReported due s).pen.owed = (if l.cutAfter then some l.saleTag else s.pen.owed) := by
  obtain ⟨hpen, _⟩ := reportRowEnd_printKept (rowDone (rowStepped due s))
  rw [rowReported, hpen, rowDone_last (s := rowStepped due s) hq h, lineLeaves_pen]
  exact ⟨rfl, rfl⟩

theorem goOn_part {p : Part} (s : State) (hp : p ∉ s.goParts) : exactPart s (goOn s) p := (goOn_works s).part hp

theorem clock_notMem_goParts (s : State) : Part.clock ∉ s.goParts := by
  unfold State.goParts State.grantParts State.tableParts
  (repeat' split) <;> decide

theorem goOn_clock (s : State) : (goOn s).clock = s.clock := goOn_part (p := .clock) s (clock_notMem_goParts s)

theorem link_notMem_goParts (s : State) : Part.link ∉ s.goParts := by
  unfold State.goParts State.grantParts State.tableParts
  (repeat' split) <;> decide

end

/-- A feed step has ended, before the printer goes on. -/
def feedStepped (due : Nat) (s : State) : State :=
  { reach due s with pen := { s.pen with feed := s.pen.feed - 1, sinceGlyph := min 255 (s.pen.sinceGlyph + 1) } }

theorem feedStepped_works (due : Nat) (s : State) : Works [.clock, .printer] [] s (feedStepped due s) :=
  ((reach_works due s).mono (by simp) (by simp)).trans ((with_pen_works _ (reach due s)).mono (by simp) (by simp))

theorem feedEnds_eq {s : State} {due : Nat} (h : s.pen.state = .feeding due) : feedEnds s = goOn (feedStepped due s) := by
  rw [feedEnds, h]
  rfl

/-- Settles O46: the end of a strobe, of a row, unhalted and halted, and of a feed step, halted and unhalted. -/
theorem rowsStepsAndFeedsFollowEachOther : Obligations.RowsStepsAndFeedsFollowEachOther := by
  unfold Obligations.RowsStepsAndFeedsFollowEachOther
  intro marked
  refine ⟨fun s rest p due hs => ⟨fun hr => ?_, fun q qs hr harb hpulse => ?_⟩, fun s rest due l q hs hq hp hc hw => ?_,
    fun s rest due l q hs hq hhalt => ?_, fun s due hs hhalt => ?_, fun s due hs hp hc hw => ⟨fun hf => ?_, fun hf ho => ?_⟩⟩
  · have he : phaseEnds s = setPrinter (.printing [] (.stepping (max s.clock due + 1000)))
        { reach due s with pbu := { s.pbu with strobe := false } } := by
      rw [phaseEnds_eq hs, hr]
      rfl
    have hworks : Works [.clock, .printer, .budget] [] s (phaseEnds s) := by
      rw [he]
      exact ((reach_works due s).mono (by simp) (by simp)).trans
        (((with_pbu_works _ (reach due s)).mono (by simp) (by simp)).trans ((setPrinter_works _ _).mono (by simp) (by simp)))
    refine does_of (f := phaseEnds) rfl hworks (.inl (detail_of_works hworks (by decide))) ?_
    rw [finish_clock, finish_pbu, finish_pen, he]
    exact ⟨rfl, rfl, rfl⟩
  · let waiting : State := setPrinter (.printing qs (.waiting q)) { reach due s with pbu := { s.pbu with strobe := false } }
    have he : phaseEnds s = placePhase false q.cost waiting := by
      rw [phaseEnds_eq hs, hr]
      rfl
    have hnext := placePhase_next (s := waiting) q harb hpulse
    have hwait : Works [.clock, .printer, .budget] [] s waiting :=
      ((reach_works due s).mono (by simp) (by simp)).trans
        (((with_pbu_works _ (reach due s)).mono (by simp) (by simp)).trans ((setPrinter_works _ _).mono (by simp) (by simp)))
    have hworks : Works [.clock, .printer, .budget] [] s (phaseEnds s) := by
      rw [he, hnext]
      split
      · exact hwait.trans (((with_pbu_works _ waiting).mono (by simp) (by simp)).trans
          ((grantPhase_works _ _).mono (by simp) (by simp)))
      · exact hwait.trans ((with_pbu_works _ waiting).mono (by simp) (by simp))
    refine does_of (f := phaseEnds) rfl hworks (.inl (detail_of_works hworks (by decide))) ?_
    have hclock : (phaseEnds s).clock = max s.clock due := by
      rw [he, hnext]
      split <;> rfl
    rw [finish_clock, finish_pbu, finish_pen, hclock, he, hnext]
    refine ⟨rfl, fun hfit => ?_, fun hfull => ?_⟩
    · have hfit' : grantSum waiting.pbu.grants + q.cost ≤ 64 := hfit
      rw [if_pos hfit']
      exact ⟨rfl, rfl⟩
    · have hfull' : ¬grantSum waiting.pbu.grants + q.cost ≤ 64 := by
        show ¬grantSum s.pbu.grants + q.cost ≤ 64
        omega
      rw [if_neg hfull']
      exact ⟨rfl, rfl⟩
  · have he : rowEnds s = goOn (rowReported due s) := rowEnds_eq hs
    obtain ⟨hsince, hpaper, hcover, _⟩ := rowReported_pen (due := due) hq
    have hfree : (rowReported due s).Unhalted := ⟨hpaper.trans hp, hcover.trans hc, (rowReported_warning hq).trans hw⟩
    have hworks := (rowReported_works (due := due) hq).trans (goOn_fullParts (rowReported due s))
    have hfeeds (hf : 0 < (rowReported due s).pen.feed) :
        goOn (rowReported due s) = setPrinter (.feeding (max s.clock due + 1000)) (rowReported due s) := by
      rw [← rowReported_clock hq]
      exact goOnFrom_feeding _ hfree hf
    refine does_of (f := rowEnds) rfl (by rw [he]; exact hworks) (.inr (by simp)) ?_
    rw [finish_clock, finish_pen, finish_sru, he, goOn_clock, rowReported_clock hq, goOn_unprinted, rowReported_unprinted hq]
    have hsince' : (goOn (rowReported due s)).pen.sinceGlyph = 0 := by
      obtain ⟨⟨_, _, _, _, _, hglyph⟩, _⟩ := goOn_sensors (rowReported due s)
      exact hglyph.trans hsince
    refine ⟨rfl, hsince', rfl, fun hmore => ?_, fun hlast hcut => ?_, fun hlast hcut hpitch => ?_⟩
    · obtain ⟨hqueue, _⟩ := rowReported_more (due := due) hq hmore
      obtain ⟨hpen, _⟩ := goOn_line_printKept hfree hqueue
      rw [hpen]
      exact hqueue
    · obtain ⟨hfeed, howed⟩ := rowReported_last (due := due) hq hlast
      rw [hcut] at hfeed howed
      rw [hfeeds (by rw [hfeed, if_pos rfl]; decide)]
      exact ⟨hfeed, howed, rfl⟩
    · obtain ⟨hfeed, _⟩ := rowReported_last (due := due) hq hlast
      rw [hcut] at hfeed
      have hpos : 0 < (rowReported due s).pen.feed := by
        rw [hfeed]
        show 0 < min 255 _
        omega
      rw [hfeeds hpos]
      exact ⟨hfeed, rfl⟩
  · have he : rowEnds s = goOn (rowReported due s) := rowEnds_eq hs
    obtain ⟨hsince, hpaper, hcover, hnear⟩ := rowReported_pen (due := due) hq
    have hhalts : (rowReported due s).Halts := by
      unfold State.Halts
      rw [hpaper, hcover, rowReported_warning hq]
      exact hhalt
    have hmarked : (rowReported due s).marked = marked s := by
      rw [State.marked, hpaper, hcover]
    have hworks := (rowReported_works (due := due) hq).trans (goOn_fullParts (rowReported due s))
    refine does_of (f := rowEnds) rfl (by rw [he]; exact hworks) (.inr (by simp)) ?_
    rw [he, goOn_halts hhalts]
    have hhalted := haltedFor_haltAt (s := s) (x := rowReported due s) s hcover hpaper hnear
    rw [← goOn_halts hhalts, finish_clock, finish_sru, goOn_clock, rowReported_clock hq, goOn_unprinted,
      rowReported_unprinted hq, goOn_halts hhalts, finish_pen, haltAt_pen]
    refine ⟨rfl, hsince, rfl, hhalted, fun hmore => ?_, fun hlast => ⟨fun hm p q' hqueue => ?_, fun hcut => ?_, fun hcut => ?_⟩⟩
    · obtain ⟨hqueue, hfeed, howed⟩ := rowReported_more (due := due) hq hmore
      refine ⟨?_, hfeed, howed⟩
      show (if (rowReported due s).marked = true then _ else _) = _
      rw [hmarked, hqueue]
      cases marked s <;> rfl
    · have hqueue' : (if (rowReported due s).marked = true then restartHead (rowReported due s).pen.queue
          else (rowReported due s).pen.queue) = .line p :: q' := hqueue
      rw [hmarked, hm] at hqueue'
      exact restartHead_rowsDone hqueue'
    · obtain ⟨hfeed, howed⟩ := rowReported_last (due := due) hq hlast
      rw [hcut] at hfeed howed
      exact ⟨hfeed, howed⟩
    · obtain ⟨hfeed, howed⟩ := rowReported_last (due := due) hq hlast
      rw [hcut] at hfeed howed
      exact ⟨hfeed, howed⟩
  · have hhalts : (feedStepped due s).Halts := hhalt
    have he : feedEnds s = haltAt (feedStepped due s) := (feedEnds_eq hs).trans (goOn_halts hhalts)
    have hworks : Works [.clock, .printer, .tables] [12, 13] s (feedEnds s) := by
      rw [he]
      refine ((feedStepped_works due s).mono (by simp) (by simp)).trans ((haltAt_works _).mono (fun p hp => ?_) (by simp))
      unfold State.tableParts at hp
      split at hp <;> simp at hp ⊢ <;> tauto
    refine does_of (f := feedEnds) rfl hworks (.inl (detail_of_works hworks (by decide))) ?_
    have hclock : (feedEnds s).clock = max s.clock due := by
      rw [feedEnds_eq hs, goOn_clock]
      rfl
    rw [finish_clock, hclock, he]
    refine ⟨rfl, haltedFor_haltAt s rfl rfl rfl, ?_⟩
    rw [finish_pen, haltAt_pen]
    have hm : (feedStepped due s).marked = marked s := rfl
    rw [hm]
    have hqueue : (feedStepped due s).pen.queue = s.pen.queue := rfl
    rw [hqueue]
    cases marked s with
    | false => cases s.pen.queue <;> rfl
    | true =>
      cases s.pen.queue with
      | nil => rfl
      | cons e q => cases e <;> rfl
  · have hfree : (feedStepped due s).Unhalted := ⟨hp, hc, hw⟩
    have he : feedEnds s = setPrinter (.feeding (max s.clock due + 1000)) (feedStepped due s) :=
      (feedEnds_eq hs).trans (goOnFrom_feeding _ hfree (by show 0 < s.pen.feed - 1; omega))
    have hworks : Works [.clock, .printer] [] s (feedEnds s) := by
      rw [he]
      exact (feedStepped_works due s).trans ((setPrinter_works _ _).mono (by simp) (by simp))
    refine does_of (f := feedEnds) rfl hworks (.inl (detail_of_works hworks (by decide))) ?_
    rw [finish_clock, finish_pen, he]
    exact ⟨rfl, rfl⟩
  · have hfree : (feedStepped due s).Unhalted := ⟨hp, hc, hw⟩
    have hfeed : (feedStepped due s).pen.feed = 0 := by
      show s.pen.feed - 1 = 0
      omega
    have he : feedEnds s = startCut (feedStepped due s) := (feedEnds_eq hs).trans (goOnFrom_cuts _ hfree hfeed ho)
    have hworks : Works [.clock, .printer] [] s (feedEnds s) := by
      rw [he]
      exact (feedStepped_works due s).trans ((setPrinter_works _ _).mono (by simp) (by simp))
    refine does_of (f := feedEnds) rfl hworks (.inl (detail_of_works hworks (by decide))) ?_
    rw [finish_clock, finish_pen, he]
    refine ⟨rfl, ?_⟩
    show ({ (feedStepped due s).pen with state := _ } : Pen) = _
    rw [← hfeed]
    rfl

end Sys2Proof.Machine
end

section
/-! Proofs about the printer: O47, the cutter cycle (R134, R60), and O48, the sensors (R136, R137, R139). -/

namespace Sys2Proof.Machine

open Sys2Proof

/-! ## The cut of a sale (R60, R134) -/

section

variable {s : State} {o : Sale}

theorem cutCompleted_eq (hc : s.sru.closing = some o) :
    cutCompleted o.tag s = composerFill (enterClosing (leaveClosing s)) := by
  rw [cutCompleted, hc]
  exact if_pos rfl

theorem cutCompleted_other {tag : Nat} (h : ∀ o, s.sru.closing = some o → o.tag ≠ tag) : cutCompleted tag s = s := by
  refine if_neg fun he => ?_
  obtain ⟨o, ho, ht⟩ := Option.map_eq_some_iff.mp he
  exact h o ho ht

theorem leaveClosing_suspended (hc : s.sru.closing = some o) (hk : o.closingKind = some .suspended) :
    leaveClosing s = raiseSale o (.live .suspended) { s with sru := { s.sru with
      closing := none, stack := { o with state := .suspended, closingKind := none } :: s.sru.stack } } := by
  unfold leaveClosing
  rw [hc]
  exact if_pos hk

theorem leaveClosing_released (hc : s.sru.closing = some o) (hk : o.closingKind ≠ some .suspended) :
    leaveClosing s = raiseSale o .released { s with sru := { s.sru with closing := none } } := by
  unfold leaveClosing
  rw [hc]
  exact if_neg hk

end

/-- SRU has heard of the cut (R134). -/
def cycleReported (s : State) : State :=
  match s.pen.owed with
  | some (some tag) => cutCompleted tag s
  | _ => s

/-- SRU has heard of the cut, and the owed cut is cleared. -/
def cycleCleared (s : State) : State :=
  { cycleReported s with pen := { (cycleReported s).pen with owed := none } }

theorem cycleCompletes_eq (s : State) : cycleCompletes s = goOn (cycleCleared s) := by
  unfold cycleCompletes cycleCleared cycleReported
  cases s.pen.owed with
  | none => rfl
  | some tag => cases tag <;> rfl

theorem cycleReported_of_owed {s : State} {tag : Nat} (h : s.pen.owed = some (some tag)) :
    cycleReported s = cutCompleted tag s := by
  rw [cycleReported, h]

theorem leaveClosing_pen (s : State) : (leaveClosing s).pen = s.pen := (leaveClosing_works s).part (p := .printer) (by decide)

theorem enterClosing_pen (s : State) : (enterClosing s).pen = s.pen := enterClosing_part (p := .printer) s (by decide)

theorem cutCompleted_pen (tag : Nat) (s : State) :
    (cutCompleted tag s).pen =
      { s.pen with queue := (cutCompleted tag s).pen.queue, context := (cutCompleted tag s).pen.context } := by
  unfold cutCompleted
  split
  · rw [composerFill_pen, enterClosing_pen, leaveClosing_pen]
  · rfl

theorem cycleReported_pen (s : State) :
    (cycleReported s).pen = { s.pen with queue := (cycleReported s).pen.queue, context := (cycleReported s).pen.context } := by
  unfold cycleReported
  split
  · exact cutCompleted_pen ..
  · rfl

theorem cycleReported_works (s : State) : Works [.sale, .tables, .printer] [9, 13] s (cycleReported s) := by
  unfold cycleReported
  split
  · exact cutCompleted_works ..
  · exact Works.refl _ _ s

theorem cycleCleared_works (s : State) : Works [.sale, .tables, .printer] [9, 13] s (cycleCleared s) :=
  (cycleReported_works s).trans ((with_pen_works _ _).mono (by simp) (by simp))

theorem setHome_works (home : Bool) (s : State) : Works [.pins, .printer] [] s (setHome home s) :=
  Works.of rfl rfl rfl rfl fun p hp => by
    cases p with
    | pins => exact absurd (by simp) hp
    | printer => exact absurd (by simp) hp
    | _ => rfl

theorem cycle_works (s : State) :
    Works [.pins, .sale, .printer, .budget, .till, .weighing, .tables] [2, 9, 12, 13] s (cycleCompletes (setHome true s)) := by
  rw [cycleCompletes_eq]
  refine ((setHome_works true s).mono (by simp) (by simp)).trans
    (((cycleCleared_works _).mono (by simp) (by simp)).trans ((goOn_works _).mono (fun p hp => ?_) (by simp)))
  unfold State.goParts State.grantParts State.tableParts at hp
  (repeat' split at hp) <;> simp at hp ⊢ <;> tauto

/-- Both events that complete a cycle do the same (log 39). -/
theorem cycle_does {s : State} {due : Nat} {i : Instr} {P : State → Prop} (hs : s.pen.state = .cutting due true)
    (hi : i = .cutterCycleComplete ∨ (i = .cutterHomeSwitchChange true ∧ s.pen.home = false))
    (hP : P (finish s (cycleCompletes (setHome true s)))) :
    Does i s [.pins, .sale, .printer, .budget, .till, .weighing, .tables] [2, 9, 12, 13] P := by
  have hshown : homeShown s = cycleCompletes (setHome true s) := by
    rw [homeShown, hs]
  rcases hi with rfl | ⟨rfl, hhome⟩
  · let f : State → State := fun s =>
      match s.pen.state with
      | .cutting _ true => homeShown s
      | _ => s
    have he : f s = cycleCompletes (setHome true s) := by
      show (match s.pen.state with | .cutting _ true => homeShown s | _ => s) = _
      rw [hs]
      exact hshown
    exact does_of (f := f) rfl (by rw [he]; exact cycle_works s) (.inr (by simp)) (by rw [he]; exact hP)
  · let f : State → State := fun s => if s.pen.home = true then s else if true then homeShown s else awayShown s
    have he : f s = cycleCompletes (setHome true s) := by
      show (if s.pen.home = true then s else if true then homeShown s else awayShown s) = _
      rw [hhome]
      exact hshown
    exact does_of (f := f) rfl (by rw [he]; exact cycle_works s) (.inr (by simp)) (by rw [he]; exact hP)

theorem tables_only (s : State) {p : Part} (hp : p ≠ .tables) : p ∉ (if s.printTablesWait then [Part.tables] else []) := by
  split
  · simpa using hp
  · simp

/-- Settles O47: the cycle of the closing sale's cut, any cycle, the switch at AWAY, and the cutter timer. -/
theorem cutterCycleReleasesTheClosingSale : Obligations.CutterCycleReleasesTheClosingSale := by
  unfold Obligations.CutterCycleReleasesTheClosingSale
  refine ⟨fun s due o hs howed hclosing i hi => cycle_does hs hi ?_, fun s due hs i hi => cycle_does hs hi ?_,
    fun s due b hs hhome => ?_, fun s due b hs => ?_⟩
  · have hrep : cycleReported (setHome true s) = composerFill (enterClosing (leaveClosing (setHome true s))) :=
      (cycleReported_of_owed (s := setHome true s) howed).trans (cutCompleted_eq (s := setHome true s) hclosing)
    have hhome : (cycleCompletes (setHome true s)).pen.home = true := by
      rw [cycleCompletes_eq]
      obtain ⟨⟨_, _, _, _, hh, _⟩, _⟩ := goOn_sensors (cycleCleared (setHome true s))
      rw [hh, cycleCleared, cycleReported_pen]
      rfl
    have hsru : (cycleCompletes (setHome true s)).sru.unprinted =
        (leaveClosing (setHome true s)).sru.entered.unprinted := by
      rw [cycleCompletes_eq, goOn_unprinted]
      show (cycleReported (setHome true s)).sru.unprinted = _
      rw [hrep, composerFill_unprinted, enterClosing_sru]
    have hnotice {n : Notice} (h9 : n.kind = 9) (h : Standing (leaveClosing (setHome true s)) n) :
        Notified (finish s (cycleCompletes (setHome true s))) n := by
      have h' : Standing (cycleCleared (setHome true s)) n := by
        unfold cycleCleared
        rw [hrep]
        exact ((h.enterClosing (by rw [h9]; decide)).composerFill).of_notices rfl
      have hgo := h'.goOn (by rw [h9]; decide) (by rw [h9]; decide)
      rw [← cycleCompletes_eq] at hgo
      exact hgo.finish s (by rw [h9]; decide)
    rw [finish_pen, finish_sru, hsru]
    refine ⟨hhome, fun hk => ?_, fun hk => ?_⟩
    · have he := leaveClosing_suspended (s := setHome true s) hclosing hk
      refine ⟨by rw [he]; rfl, hnotice rfl ?_⟩
      rw [he]
      exact standing_raise _ _
    · have he := leaveClosing_released (s := setHome true s) hclosing hk
      refine ⟨by rw [he]; rfl, hnotice rfl ?_⟩
      rw [he]
      exact standing_raise _ _
  · have hpen : (cycleCleared (setHome true s)).pen = { s.pen with
        home := true, owed := none, queue := (cycleReported (setHome true s)).pen.queue
        context := (cycleReported (setHome true s)).pen.context } := by
      rw [cycleCleared, cycleReported_pen]
      rfl
    have hbudget : (cycleCleared (setHome true s)).pbu = s.pbu :=
      (cycleCleared_works (setHome true s)).part (p := .budget) (by decide)
    have hpins : (cycleCompletes (setHome true s)).pins = { s.pins with cutterHome := true } := by
      rw [cycleCompletes_eq]
      have h1 : (goOn (cycleCleared (setHome true s))).pins = (cycleCleared (setHome true s)).pins :=
        goOn_part (p := .pins) _ (by
          unfold State.goParts State.grantParts State.tableParts
          (repeat' split) <;> decide)
      have h2 : (cycleCleared (setHome true s)).pins = (setHome true s).pins :=
        (cycleCleared_works (setHome true s)).part (p := .pins) (by decide)
      rw [h1, h2]
      rfl
    have hhome : (cycleCompletes (setHome true s)).pen.home = true := by
      rw [cycleCompletes_eq]
      obtain ⟨⟨_, _, _, _, hh, _⟩, _⟩ := goOn_sensors (cycleCleared (setHome true s))
      rw [hh, hpen]
    refine ⟨by rw [finish_pen]; exact hhome, by rw [finish_pins]; exact hpins, fun hother => ?_, fun hhalt => ?_⟩
    · rw [finish_sru, cycleCompletes_eq, goOn_unprinted]
      show (cycleReported (setHome true s)).sru.unprinted = _
      have he : cycleReported (setHome true s) = setHome true s := by
        cases howed : s.pen.owed with
        | none =>
          unfold cycleReported
          rw [show (setHome true s).pen.owed = none from howed]
        | some owed =>
          cases owed with
          | none =>
            unfold cycleReported
            rw [show (setHome true s).pen.owed = some none from howed]
          | some tag =>
            rw [cycleReported_of_owed (s := setHome true s) howed]
            refine cutCompleted_other fun o ho ht => hother o ho ?_
            rw [howed, ht]
      rw [he]
      rfl
    · have hhalts : (cycleCleared (setHome true s)).Halts := by
        unfold State.Halts
        rw [hpen, hbudget]
        exact hhalt
      rw [cycleCompletes_eq, goOn_halts hhalts]
      refine ⟨haltedFor_haltAt s (by rw [hpen]) (by rw [hpen]) (by rw [hpen]), ?_⟩
      rw [finish_pen, haltAt_pen]
      refine ⟨by rw [hpen], by rw [hpen], fun hmark p q hq => ?_⟩
      have hm : (cycleCleared (setHome true s)).marked = true := by
        rw [State.marked, hpen, Bool.or_eq_true]
        exact hmark
      have hq' : (if (cycleCleared (setHome true s)).marked = true then
          restartHead (cycleCleared (setHome true s)).pen.queue else (cycleCleared (setHome true s)).pen.queue) =
          .line p :: q := hq
      rw [if_pos hm] at hq'
      exact restartHead_rowsDone hq'
  · let f : State → State := fun s => if s.pen.home = false then s else if false then homeShown s else awayShown s
    have he : f s = setPrinter (.cutting due true) (setHome false s) := by
      show (if s.pen.home = false then s else if false then homeShown s else awayShown s) = _
      rw [hhome]
      show awayShown s = _
      rw [awayShown, hs]
    have hworks : Works [.pins, .printer] [] s (f s) := by
      rw [he]
      exact (setHome_works false s).trans ((setPrinter_works _ _).mono (by simp) (by simp))
    refine does_of (f := f) rfl hworks (.inl (detail_of_works hworks (by decide))) ?_
    rw [finish_pen, finish_pins, he]
    exact ⟨rfl, rfl⟩
  · have he : cutterExpires s = enterHalt .cutter (reach due s) := by
      rw [cutterExpires, hs]
    have hworks : Works ([.clock, .printer] ++ (if s.printTablesWait then [.tables] else [])) [12, 13] s (cutterExpires s) := by
      rw [he]
      refine ((reach_works due s).mono (by simp) (by simp)).trans ((enterHalt_works _ _).mono (fun p hp => ?_) (by simp))
      have hp' : p ∈ Part.printer :: (if s.printTablesWait then [Part.tables] else []) := hp
      simp only [List.mem_cons, List.mem_append] at hp' ⊢
      tauto
    refine does_of (f := cutterExpires) rfl hworks (.inl (detail_of_works hworks fun hp => ?_)) ?_
    · rcases List.mem_append.mp hp with hp | hp
      · simp at hp
      · exact tables_only s (by decide) hp
    · have hclock : (enterHalt .cutter (reach due s)).clock = max s.clock due :=
        (enterHalt_works .cutter (reach due s)).part (p := .clock) (by
          unfold State.tableParts
          split <;> decide)
      rw [finish_clock, finish_pen, he, hclock, enterHalt_pen]
      exact ⟨rfl, rfl, (enterHalt_standing .cutter (reach due s)).finish s (by simp [Notice.kind])⟩

end Sys2Proof.Machine
end

section
/-! Proofs about the printer: O48, the sensors (R136, R137, R139). -/

namespace Sys2Proof.Machine

open Sys2Proof

/-! ## A halt mark (R137) -/

theorem haltAt_marked {s : State} (h : s.marked = true) : haltAt s = actMark s := if_pos h

theorem markNow_acts {s : State} (h : s.pen.state = .idle ∨ s.pen.state = .hotWait ∨ s.pen.state = .halted .supply)
    (hm : s.marked = true) : markNow s = haltAt s := by
  rw [haltAt_marked hm]
  unfold markNow
  rcases h with h | h | h <;> rw [h]

theorem markNow_waits {s : State} (hi : s.pen.state ≠ .idle) (hh : s.pen.state ≠ .hotWait)
    (hs : s.pen.state ≠ .halted .supply) : markNow s = s := by
  unfold markNow
  split
  · rename_i h
    exact absurd h hi
  · rename_i h
    exact absurd h hh
  · rename_i h
    exact absurd h hs
  · rfl

/-- The paper is out, or the cover open, and the sensor's mark is kept (R137). -/
def sensed (cover : Bool) (s : State) : State :=
  if cover then
    { s with pins := { s.pins with coverOpen := true }, pen := { s.pen with coverOpen := true, coverMark := true } }
  else { s with pins := { s.pins with paperOut := true }, pen := { s.pen with paperOut := true, paperMark := true } }

/-- The command of the sensor that shows. -/
def sensorShows (cover : Bool) : Instr := if cover then .coverOpenChange true else .paperOutChange true

/-- What the event of the sensor that shows does. -/
def sensorEvent (cover : Bool) (s : State) : State := if cover then coverOpenChanges true s else paperOutChanges true s

theorem exec_sensorShows (cover : Bool) (s : State) : exec (sensorShows cover) s = event (sensorEvent cover) s := by
  cases cover <;> rfl

theorem sensorEvent_eq {cover : Bool} {s : State} (h : (if cover then s.pen.coverOpen else s.pen.paperOut) = false) :
    sensorEvent cover s = markNow (sensed cover s) := by
  cases cover with
  | true =>
    have hoff : s.pen.coverOpen ≠ true := by
      have hoff : s.pen.coverOpen = false := h
      rw [hoff]
      decide
    exact if_neg hoff
  | false =>
    have hoff : s.pen.paperOut ≠ true := by
      have hoff : s.pen.paperOut = false := h
      rw [hoff]
      decide
    exact if_neg hoff

theorem with_pins_pen_works (x : Pins) (y : Pen) (s : State) : Works [.pins, .printer] [] s { s with pins := x, pen := y } :=
  Works.of rfl rfl rfl rfl fun p hp => by
    cases p with
    | pins => exact absurd (by simp) hp
    | printer => exact absurd (by simp) hp
    | _ => rfl

theorem sensed_works (cover : Bool) (s : State) : Works [.pins, .printer] [] s (sensed cover s) := by
  cases cover <;> exact with_pins_pen_works _ _ s

theorem sensed_state (cover : Bool) (s : State) : (sensed cover s).pen.state = s.pen.state := by cases cover <;> rfl

theorem sensed_marked (cover : Bool) (s : State) : (sensed cover s).marked = true := by
  cases cover with
  | true => exact Bool.or_true _
  | false => rfl

theorem sensed_reason (cover : Bool) (s : State) :
    (sensed cover s).haltReason = if cover || s.pen.coverMark then HaltReason.coverOpen else .paperOut := by
  cases cover with
  | true => rfl
  | false => cases hc : s.pen.coverMark <;> simp [State.haltReason, sensed, hc]

theorem sensed_figures (cover : Bool) (s : State) :
    (sensed cover s).pen.queue = s.pen.queue ∧ (sensed cover s).pen.feed = s.pen.feed ∧
    (sensed cover s).pen.owed = s.pen.owed ∧ (sensed cover s).pen.nearEnd = s.pen.nearEnd := by
  cases cover <;> exact ⟨rfl, rfl, rfl, rfl⟩

theorem haltAt_printerParts (s : State) :
    Works ([.pins, .printer] ++ (if s.printTablesWait then [.tables] else [])) [12, 13] s (haltAt s) :=
  (haltAt_works s).mono (fun p hp => by
    have hp' : p ∈ Part.printer :: (if s.printTablesWait then [Part.tables] else []) := hp
    simp only [List.mem_cons, List.mem_append] at hp' ⊢
    tauto) (by simp)

/-- A sensor that shows in a state at rest halts the printer at once (R137). -/
theorem sensor_halts {s : State} {cover : Bool} (hoff : (if cover then s.pen.coverOpen else s.pen.paperOut) = false)
    (hs : s.pen.state = .idle ∨ s.pen.state = .hotWait ∨ s.pen.state = .halted .supply) :
    Does (sensorShows cover) s ([.pins, .printer] ++ (if s.printTablesWait then [.tables] else [])) [12, 13] fun t =>
      let reason := if cover || s.pen.coverMark then HaltReason.coverOpen else .paperOut
      t.pen.state = .halted reason ∧ t.pen.paperMark = false ∧ t.pen.coverMark = false ∧
      (∀ l q, s.pen.queue = .line l :: q → t.pen.queue = .line { l with rowsDone := 0 } :: q) ∧
      t.pen.feed = s.pen.feed ∧ t.pen.owed = s.pen.owed ∧ Notified t (.printer (.halted reason) s.pen.nearEnd) := by
  have he : sensorEvent cover s = haltAt (sensed cover s) :=
    (sensorEvent_eq hoff).trans (markNow_acts (by rw [sensed_state]; exact hs) (sensed_marked cover s))
  have hwait : (sensed cover s).printTablesWait = s.printTablesWait := by cases cover <;> rfl
  have hhalt := haltAt_printerParts (sensed cover s)
  rw [hwait] at hhalt
  have hworks : Works ([.pins, .printer] ++ (if s.printTablesWait then [.tables] else [])) [12, 13] s (sensorEvent cover s) := by
    rw [he]
    exact ((sensed_works cover s).mono (fun p hp => List.mem_append_left _ hp) (by simp)).trans hhalt
  obtain ⟨hqueue, hfeed, howed, hnear⟩ := sensed_figures cover s
  refine does_of (exec_sensorShows cover s) hworks (.inl (detail_of_works hworks fun hp => ?_)) ?_
  · rcases List.mem_append.mp hp with hp | hp
    · simp at hp
    · exact tables_only s (by decide) hp
  · intro reason
    have hstands := (haltAt_standing (sensed cover s)).finish s (by simp [Notice.kind])
    rw [sensed_reason, hnear] at hstands
    rw [he, finish_pen, haltAt_pen, sensed_reason, sensed_marked, if_pos rfl, hqueue]
    refine ⟨rfl, rfl, rfl, fun l q hl => ?_, hfeed, howed, hstands⟩
    show restartHead s.pen.queue = _
    rw [hl]
    rfl

theorem sensor_waits {s : State} {cover : Bool} (hoff : (if cover then s.pen.coverOpen else s.pen.paperOut) = false)
    (hi : s.pen.state ≠ .idle) (hh : s.pen.state ≠ .hotWait) (hs : s.pen.state ≠ .halted .supply) :
    Does (sensorShows cover) s [.pins, .printer] [] fun t =>
      t.pen = (if cover then { s.pen with coverOpen := true, coverMark := true }
               else { s.pen with paperOut := true, paperMark := true }) := by
  have he : sensorEvent cover s = sensed cover s :=
    (sensorEvent_eq hoff).trans (markNow_waits (by rw [sensed_state]; exact hi) (by rw [sensed_state]; exact hh)
      (by rw [sensed_state]; exact hs))
  have hworks : Works [.pins, .printer] [] s (sensorEvent cover s) := by
    rw [he]
    exact sensed_works cover s
  refine does_of (exec_sensorShows cover s) hworks (.inl (detail_of_works hworks (by decide))) ?_
  rw [finish_pen, he]
  cases cover <;> rfl

/-! ## A glyph row -/

theorem startRow_printing (l : PrintLine) (s : State) : ∃ phases stage, (startRow l s).pen.state = .printing phases stage := by
  unfold startRow
  split
  · exact ⟨_, _, rfl⟩
  · rename_i p rest _
    rcases placePhase_pen_state true p.cost (setPrinter (.printing rest (.waiting p)) s) with e | e <;> rw [e] <;>
      exact ⟨_, _, rfl⟩

/-- A sensor of the printer with its level, set with no other effect. -/
theorem sensor_quiet {i : Instr} {f : State → State} {s : State} {x : Pins} {y : Pen} (hi : exec i s = event f s)
    (hf : f s = { s with pins := x, pen := y }) : Does i s [.pins, .printer] [] fun t => t.pen = y := by
  have hworks : Works [.pins, .printer] [] s (f s) := by
    rw [hf]
    exact with_pins_pen_works x y s
  refine does_of hi hworks (.inl (detail_of_works hworks (by decide))) ?_
  rw [finish_pen, hf]

/-- Settles O48: the paper and the cover showing and clearing, the head hot and cool, and the near end. -/
theorem printerSensorsHaltHoldAndReport : Obligations.PrinterSensorsHaltHoldAndReport := by
  unfold Obligations.PrinterSensorsHaltHoldAndReport
  refine ⟨⟨fun s cover hoff => ⟨sensor_halts hoff, sensor_waits hoff⟩, fun s h => ?_, fun s h => ?_, fun s h => ?_,
    fun s l q hhot hs hq hp hc hw hf ho => ?_⟩, fun s near hne => ?_, fun s hnear hpaper hc hs => ?_⟩
  · refine sensor_quiet (f := paperOutChanges false) (x := { s.pins with paperOut := false }) rfl ?_
    have hon : s.pen.paperOut ≠ false := by
      rw [h]
      decide
    exact if_neg hon
  · refine sensor_quiet (f := coverOpenChanges false) (x := { s.pins with coverOpen := false }) rfl ?_
    have hon : s.pen.coverOpen ≠ false := by
      rw [h]
      decide
    exact if_neg hon
  · refine sensor_quiet (f := headHotChanges true) (x := { s.pins with headHot := true }) rfl ?_
    have hcool : s.pen.headHot ≠ true := by
      rw [h]
      decide
    exact if_neg hcool
  · let cool : State := { s with pins := { s.pins with headHot := false }, pen := { s.pen with headHot := false } }
    have he : headHotChanges false s = startRow l cool := by
      have hon : s.pen.headHot ≠ false := by
        rw [hhot]
        decide
      have hgo : goOn cool = startRow l cool := goOn_line (s := cool) ⟨hp, hc, hw⟩ hf ho hq
      rw [← hgo]
      exact (if_neg hon).trans (if_pos (by rw [hs]; rfl))
    have hworks : Works ([.pins, .printer, .budget] ++ s.grantParts) [2] s (headHotChanges false s) := by
      rw [he]
      refine ((with_pins_pen_works _ _ s).mono (fun p hp => ?_) (by simp)).trans ((startRow_works l cool).mono (fun p hp => ?_) (by simp))
      · simp only [List.mem_cons, List.mem_append, List.not_mem_nil, or_false] at hp ⊢
        tauto
      · have hp' : p ∈ [Part.printer, .budget] ++ s.grantParts := hp
        simp only [List.mem_cons, List.mem_append, List.not_mem_nil, or_false] at hp' ⊢
        tauto
    obtain ⟨hpen, _⟩ := startRow_printKept l cool
    refine does_of (f := headHotChanges false) rfl hworks (.inr (by simp)) ?_
    rw [finish_pen, he]
    refine ⟨?_, ?_, startRow_printing l cool⟩ <;> rw [hpen]
  · let shown : State := { s with pins := { s.pins with nearEnd := near }, pen := { s.pen with nearEnd := near } }
    have he : nearEndChanges near s = raisePrinter shown := if_neg hne
    have hworks : Works [.pins, .printer] [12] s (nearEndChanges near s) := by
      rw [he]
      exact ((with_pins_pen_works _ _ s).mono (by simp) (by simp)).trans ((raisePrinter_works shown).mono (by simp) (by simp))
    refine does_of (f := nearEndChanges near) rfl hworks (.inl (detail_of_works hworks (by decide))) ?_
    rw [finish_pen, he]
    exact ⟨rfl, (standing_raise (.printer s.pen.state near) shown).finish s (by simp [Notice.kind])⟩
  · obtain ⟨t, ht, _, hhalted⟩ := sensor_halts (cover := false) hpaper (.inl hs)
    obtain ⟨_, _, _, _, _, _, hnote⟩ := hhalted
    refine ⟨t, ht, ?_⟩
    rw [hc, hnear] at hnote
    exact hnote

end Sys2Proof.Machine
end

section
/-! Proofs about the printer: PRINT_RESUME (R140), the first part of O49. -/

namespace Sys2Proof.Machine

open Sys2Proof

/-! ## What PRINT_RESUME leads to -/

theorem swapPrintTables_idle {s : State} (h : s.printTablesWait = false) : swapPrintTables s = s := by
  obtain ⟨hfont, hheader⟩ := Bool.or_eq_false_iff.mp h
  have hf : trySwap .font s = s := trySwap_of_not_pending fun hp => by
    have hp' : s.tbs.font.loadState = .pending := hp
    rw [hp'] at hfont
    cases hfont
  have hh : trySwap .headerTrailer s = s := trySwap_of_not_pending fun hp => by
    have hp' : s.tbs.headerTrailer.loadState = .pending := hp
    rw [hp'] at hheader
    cases hheader
  rw [swapPrintTables, hf, hh]

/-- The marks cleared, as PRINT_RESUME finds the printer. -/
theorem clearMarks_pen (s : State) : (clearMarks s).pen = { s.pen with paperMark := false, coverMark := false } := rfl

theorem clearMarks_unmarked_works (s : State) : Works [.printer] [] s (clearMarks s) := with_pen_works _ s

section

variable {s : State} {r : HaltReason}

theorem resumeFrom_warned (h : s.pbu.warning = true) : resumeFrom r s = setPrinter (.halted .supply) s := if_pos h

theorem resumeFrom_cutter (h : s.pbu.warning = false) : resumeFrom .cutter s = startCut s := by
  rw [resumeFrom, h]
  rfl

theorem resumeFrom_goesOn (h : s.pbu.warning = false) (hr : r ≠ .cutter) : resumeFrom r s = goOn s := by
  rw [resumeFrom, h]
  exact if_neg hr

end

/-- PRINT_RESUME in a halt that it may end: what it leaves is told by the printer and the sales after it. -/
theorem resume_serves {tag : Byte} {s : State} {r : HaltReason} {ps : List Part} {ks : List Nat} {P : State → State → Prop}
    (hs : s.pen.state = .halted r) (hr : r ≠ .supply) (hp : s.pen.paperOut = false) (hc : s.pen.coverOpen = false)
    (hk : 12 ∈ ks) (hd : Part.weighing ∉ ps ∨ 2 ∈ ks) (x : State → State)
    (hx : ∀ u, u.pen = s.pen → u.pbu = s.pbu → resumeFrom r (clearMarks u) = x u)
    (hw : ∀ u, u.pen = s.pen → u.pbu = s.pbu → u.tbs = s.tbs → Works ps ks u (x u))
    (hP : ∀ u t, u.pen = s.pen → u.pbu = s.pbu → t.pen = (x u).pen → t.sru = (x u).sru →
      Notified t (.printer (x u).pen.state (x u).pen.nearEnd) → P u t) :
    Serves (.printResume tag) tag s .ok (fun _ => []) ps ks P := by
  refine serves_of (h := printResume) rfl fun u hu => ?_
  have he : printResume u = okay [] (raisePrinter (x u)) := by
    rw [← hx u hu.pen hu.pbu]
    unfold printResume
    rw [hu.pen, hs, hp, hc]
    exact if_neg hr
  have hworks : Works ps ks u (raisePrinter (x u)) :=
    (hw u hu.pen hu.pbu hu.tbs).trans ((raisePrinter_works _).mono (by simp) (by simpa using hk))
  rw [he]
  refine ⟨rfl, hworks, hd.imp (detail_of_works hworks) id, hP u _ hu.pen hu.pbu ?_ ?_ ?_⟩
  · rw [finish_pen, respond_pen]
    rfl
  · rw [finish_sru, respond_sru]
    rfl
  · exact notified_respond (standing_raise (.printer (x u).pen.state (x u).pen.nearEnd) (x u)) (by simp [Notice.kind])

/-- An entry taken from the queue, the composer having acted: the printer goes on unhalted. -/
theorem filled_unhalted {s : State} {x : Pen} (h : s.Unhalted) (hp : x.paperMark = s.pen.paperMark)
    (hc : x.coverMark = s.pen.coverMark) : (composerFill { s with pen := x }).Unhalted := by
  obtain ⟨hpaper, hcover, hw⟩ := h
  unfold State.Unhalted
  rw [composerFill_pen, composerFill_pbu]
  exact ⟨hp.trans hpaper, hc.trans hcover, hw⟩

theorem weighing_notMem_fixed {ps : List Part} (h : Part.weighing ∉ ps) (s : State) :
    Part.weighing ∉ ps ++ (if s.printTablesWait then [Part.tables] else []) := fun hm => by
  rcases List.mem_append.mp hm with hm | hm
  · exact h hm
  · exact tables_only s (by decide) hm

/-! ## The clauses of PRINT_RESUME -/

section

variable {tag : Byte} {s : State} {r : HaltReason} (hs : s.pen.state = .halted r) (hr : r ≠ .supply)
  (hp : s.pen.paperOut = false) (hc : s.pen.coverOpen = false)

include hs hr hp hc

theorem resume_warned (hw : s.pbu.warning = true) :
    Serves (.printResume tag) tag s .ok (fun _ => []) [.printer] [12] fun u t =>
      t.pen = { u.pen with paperMark := false, coverMark := false, state := .halted .supply } ∧
      Notified t (.printer (.halted .supply) u.pen.nearEnd) :=
  resume_serves hs hr hp hc (by simp) (.inl (by decide)) (fun u => setPrinter (.halted .supply) (clearMarks u))
    (fun u _ hpbu => resumeFrom_warned (s := clearMarks u) (by show u.pbu.warning = true; rw [hpbu]; exact hw))
    (fun u _ _ _ => ((clearMarks_unmarked_works u).trans (setPrinter_works _ _)).mono (by simp) (by simp))
    fun _ _ _ _ hpen _ hnote => ⟨hpen, hnote⟩

theorem resume_cuts (hw : s.pbu.warning = false) (h : r = .cutter ∨ (s.pen.feed = 0 ∧ s.pen.owed ≠ none)) :
    Serves (.printResume tag) tag s .ok (fun _ => []) [.printer] [12] fun u t =>
      t.pen = { u.pen with paperMark := false, coverMark := false, state := .cutting (u.clock + 800000) !u.pen.home } ∧
      Notified t (.printer t.pen.state u.pen.nearEnd) := by
  refine resume_serves hs hr hp hc (by simp) (.inl (by decide)) (fun u => startCut (clearMarks u)) (fun u hpen hpbu => ?_)
    (fun u _ _ _ => ((clearMarks_unmarked_works u).trans (setPrinter_works _ _)).mono (by simp) (by simp))
    fun _ _ _ _ hpen _ hnote => ⟨hpen, by rw [hpen]; exact hnote⟩
  have hw' : (clearMarks u).pbu.warning = false := by
    show u.pbu.warning = false
    rw [hpbu]
    exact hw
  by_cases hcut : r = .cutter
  · rw [hcut]
    exact resumeFrom_cutter hw'
  · obtain ⟨hf, ho⟩ := h.resolve_left hcut
    rw [resumeFrom_goesOn hw' hcut]
    rw [← hpen] at hf ho
    exact goOnFrom_cuts _ ⟨rfl, rfl, hw'⟩ hf ho

/-- PRINT_RESUME of a halt but CUTTER's, with no warning: the printer goes on, without marks. -/
theorem resume_goes (hw : s.pbu.warning = false) (hcut : r ≠ .cutter) {ps : List Part} {ks : List Nat}
    {P : State → State → Prop} (hk : 12 ∈ ks) (hd : Part.weighing ∉ ps ∨ 2 ∈ ks) (x : State → State)
    (hx : ∀ u, u.pen = s.pen → (clearMarks u).Unhalted → goOn (clearMarks u) = x u)
    (hworks : ∀ u, u.pen = s.pen → u.pbu = s.pbu → u.tbs = s.tbs → Works ps ks u (x u))
    (hP : ∀ u t, u.pen = s.pen → u.pbu = s.pbu → t.pen = (x u).pen → t.sru = (x u).sru →
      Notified t (.printer (x u).pen.state (x u).pen.nearEnd) → P u t) :
    Serves (.printResume tag) tag s .ok (fun _ => []) ps ks P := by
  refine resume_serves hs hr hp hc hk hd x (fun u hpen hpbu => ?_) hworks hP
  have hw' : (clearMarks u).pbu.warning = false := by
    show u.pbu.warning = false
    rw [hpbu]
    exact hw
  rw [resumeFrom_goesOn hw' hcut]
  exact hx u hpen ⟨rfl, rfl, hw'⟩

theorem resume_feeds (hw : s.pbu.warning = false) (hcut : r ≠ .cutter) (hf : 0 < s.pen.feed) :
    Serves (.printResume tag) tag s .ok (fun _ => []) [.printer] [12] fun u t =>
      t.pen = { u.pen with paperMark := false, coverMark := false, state := .feeding (u.clock + 1000) } ∧
      Notified t (.printer t.pen.state u.pen.nearEnd) :=
  resume_goes hs hr hp hc hw hcut (by simp) (.inl (by decide))
    (fun u => setPrinter (.feeding (u.clock + 1000)) (clearMarks u))
    (fun u hpen hfree => goOnFrom_feeding _ hfree (by show 0 < u.pen.feed; rw [hpen]; exact hf))
    (fun u _ _ _ => ((clearMarks_unmarked_works u).trans (setPrinter_works _ _)).mono (by simp) (by simp))
    fun _ _ _ _ hpen _ hnote => ⟨hpen, by rw [hpen]; exact hnote⟩

theorem resume_rests (hw : s.pbu.warning = false) (hcut : r ≠ .cutter) (hf : s.pen.feed = 0) (ho : s.pen.owed = none)
    (hq : s.pen.queue = []) :
    Serves (.printResume tag) tag s .ok (fun _ => []) ([.printer] ++ (if s.printTablesWait then [.tables] else []))
      [12, 13] fun u t =>
        t.pen = { u.pen with paperMark := false, coverMark := false, state := .idle } ∧
        Notified t (.printer .idle u.pen.nearEnd) := by
  refine resume_goes hs hr hp hc hw hcut (by simp) (.inl (weighing_notMem_fixed (by decide) s))
    (fun u => swapPrintTables (setPrinter .idle (clearMarks u))) (fun u hpen hfree => ?_) (fun u _ _ htbs => ?_)
    fun u t _ _ hpen _ hnote => ?_
  · rw [← hpen] at hf ho hq
    exact goOn_rests hfree hf ho hq
  · have hwait : (setPrinter .idle (clearMarks u)).tableParts = if s.printTablesWait then [Part.tables] else [] := by
      unfold State.tableParts State.printTablesWait
      rw [← htbs]
      rfl
    have hswap := swapPrintTables_works (setPrinter .idle (clearMarks u))
    rw [hwait] at hswap
    exact (((clearMarks_unmarked_works u).trans (setPrinter_works .idle _)).mono (by simp) (by simp)).trans
      (hswap.mono (by simp +contextual) (by simp))
  · rw [swapPrintTables_pen] at hpen hnote
    exact ⟨hpen, hnote⟩

theorem resume_hot (hw : s.pbu.warning = false) (hcut : r ≠ .cutter) (hf : s.pen.feed = 0) (ho : s.pen.owed = none)
    {l : PrintLine} {q : List QueueEntry} (hq : s.pen.queue = .line l :: q) (hh : s.pen.headHot = true) :
    Serves (.printResume tag) tag s .ok (fun _ => []) [.printer] [12] fun u t =>
      t.pen = { u.pen with paperMark := false, coverMark := false, state := .hotWait } ∧
      Notified t (.printer .hotWait u.pen.nearEnd) := by
  refine resume_goes hs hr hp hc hw hcut (by simp) (.inl (by decide)) (fun u => setPrinter .hotWait (clearMarks u))
    (fun u hpen hfree => ?_)
    (fun u _ _ _ => ((clearMarks_unmarked_works u).trans (setPrinter_works _ _)).mono (by simp) (by simp))
    fun _ _ _ _ hpen _ hnote => ⟨hpen, hnote⟩
  rw [← hpen] at hf ho hq hh
  exact (goOn_line hfree hf ho hq).trans (if_pos hh)

theorem resume_row (hw : s.pbu.warning = false) (hcut : r ≠ .cutter) (hf : s.pen.feed = 0) (ho : s.pen.owed = none)
    {l : PrintLine} {q : List QueueEntry} (hq : s.pen.queue = .line l :: q) (hh : s.pen.headHot = false) :
    Serves (.printResume tag) tag s .ok (fun _ => []) ([.printer, .budget] ++ s.grantParts) [2, 12] fun u t =>
      (∃ phases stage, t.pen = { u.pen with paperMark := false, coverMark := false, state := .printing phases stage }) ∧
      Notified t (.printer t.pen.state u.pen.nearEnd) := by
  refine resume_goes hs hr hp hc hw hcut (by simp) (.inr (by simp)) (fun u => startRow l (clearMarks u))
    (fun u hpen hfree => ?_) (fun u _ hpbu _ => ?_) fun u t _ _ hpen _ hnote => ?_
  · rw [← hpen] at hf ho hq hh
    exact (goOn_line hfree hf ho hq).trans (if_neg (by show ¬u.pen.headHot = true; rw [hh]; decide))
  · have hrow := startRow_works l (clearMarks u)
    have hgrant : (clearMarks u).grantParts = s.grantParts := by
      unfold State.grantParts
      rw [← hpbu]
      rfl
    rw [hgrant] at hrow
    exact ((clearMarks_unmarked_works u).mono (by simp) (by simp)).trans (hrow.mono (fun _ h => h) (by simp))
  · obtain ⟨hkept, _⟩ := startRow_printKept l (clearMarks u)
    obtain ⟨phases, stage, hstate⟩ := startRow_printing l (clearMarks u)
    rw [hstate] at hkept
    refine ⟨⟨phases, stage, ?_⟩, ?_⟩
    · rw [hpen, hkept]
      rfl
    · rw [hpen]
      have hnear : (startRow l (clearMarks u)).pen.nearEnd = u.pen.nearEnd := by rw [hkept]; rfl
      rw [hnear] at hnote
      exact hnote

theorem resume_feedEntry (hw : s.pbu.warning = false) (hcut : r ≠ .cutter) (hf : s.pen.feed = 0) (ho : s.pen.owed = none)
    {rows : Nat} {q : List QueueEntry} (hq : s.pen.queue = .feed rows :: q) (hrows : 0 < rows) :
    Serves (.printResume tag) tag s .ok (fun _ => []) [.sale, .printer] [12] fun u t =>
      t.pen.state = .feeding (u.clock + 1000) ∧ t.pen.feed = min 255 rows ∧ t.pen.paperMark = false ∧
      t.pen.coverMark = false ∧ t.sru.unprinted = u.sru.unprinted ∧ Notified t (.printer t.pen.state u.pen.nearEnd) := by
  have hfed (u : State) (hpen : u.pen = s.pen) : (composerFill (takeFeed rows q (clearMarks u))).pen.feed = min 255 rows := by
    rw [composerFill_pen]
    show min 255 (u.pen.feed + rows) = _
    rw [hpen, hf, Nat.zero_add]
  refine resume_goes hs hr hp hc hw hcut (by simp) (.inl (by decide))
    (fun u => setPrinter (.feeding (u.clock + 1000)) (composerFill (takeFeed rows q (clearMarks u))))
    (fun u hpen hfree => ?_) (fun u _ _ _ => ?_) fun u t hu _ hpen hsru hnote => ?_
  · have hpos : 0 < (composerFill (takeFeed rows q (clearMarks u))).pen.feed := by
      rw [hfed u hpen]
      omega
    have hfree' := filled_unhalted (s := clearMarks u) (x := (takeFeed rows q (clearMarks u)).pen) hfree rfl rfl
    have hgo := goOnFrom_feeding 47 (s := composerFill (takeFeed rows q (clearMarks u))) hfree' hpos
    rw [composerFill_clock] at hgo
    rw [← hpen] at hf ho hq
    exact (goOnFrom_feedEntry 48 (s := clearMarks u) hfree hf ho hq).trans hgo
  · exact ((clearMarks_unmarked_works u).mono (by simp) (by simp)).trans
      (((with_pen_works _ (clearMarks u)).mono (by simp) (by simp)).trans
        (((composerFill_works _).mono (by simp) (by simp)).trans ((setPrinter_works _ _).mono (by simp) (by simp))))
  · have hfilled := composerFill_pen (takeFeed rows q (clearMarks u))
    have hnear : (setPrinter (.feeding (u.clock + 1000)) (composerFill (takeFeed rows q (clearMarks u)))).pen.nearEnd =
        u.pen.nearEnd := by
      show (composerFill (takeFeed rows q (clearMarks u))).pen.nearEnd = _
      rw [hfilled]
      rfl
    rw [hnear] at hnote
    rw [hpen, hsru]
    refine ⟨rfl, hfed u hu, ?_, ?_, composerFill_unprinted _, hnote⟩
    · show (composerFill (takeFeed rows q (clearMarks u))).pen.paperMark = _
      rw [hfilled]
      rfl
    · show (composerFill (takeFeed rows q (clearMarks u))).pen.coverMark = _
      rw [hfilled]
      rfl

theorem resume_cutEntry (hw : s.pbu.warning = false) (hcut : r ≠ .cutter) (hf : s.pen.feed = 0) (ho : s.pen.owed = none)
    {q : List QueueEntry} (hq : s.pen.queue = .cut :: q) :
    Serves (.printResume tag) tag s .ok (fun _ => []) [.sale, .printer] [12] fun u t =>
      t.pen.feed = 96 - u.pen.sinceGlyph ∧ t.pen.owed = some none ∧ t.sru.unprinted = u.sru.unprinted ∧
      t.pen.state = (if u.pen.sinceGlyph < 96 then .feeding (u.clock + 1000)
                     else .cutting (u.clock + 800000) !u.pen.home) ∧
      Notified t (.printer t.pen.state u.pen.nearEnd) := by
  let next (u : State) : PrinterState :=
    if u.pen.sinceGlyph < 96 then .feeding (u.clock + 1000) else .cutting (u.clock + 800000) !u.pen.home
  have hfilled (u : State) : (composerFill (takeCut q (clearMarks u))).pen.feed = 96 - u.pen.sinceGlyph ∧
      (composerFill (takeCut q (clearMarks u))).pen.owed = some none ∧
      (composerFill (takeCut q (clearMarks u))).pen.home = u.pen.home ∧
      (composerFill (takeCut q (clearMarks u))).pen.nearEnd = u.pen.nearEnd := by
    rw [composerFill_pen]
    exact ⟨rfl, rfl, rfl, rfl⟩
  refine resume_goes hs hr hp hc hw hcut (by simp) (.inl (by decide))
    (fun u => setPrinter (next u) (composerFill (takeCut q (clearMarks u))))
    (fun u hpen hfree => ?_) (fun u _ _ _ => ?_) fun u t hu _ hpen hsru hnote => ?_
  · obtain ⟨hfeed, howed, hhome, _⟩ := hfilled u
    have hfree' := filled_unhalted (s := clearMarks u) (x := (takeCut q (clearMarks u)).pen) hfree rfl rfl
    rw [← hpen] at hf ho hq
    refine (goOnFrom_cutEntry 48 (s := clearMarks u) hfree hf ho hq).trans ?_
    by_cases hnear : u.pen.sinceGlyph < 96
    · have hgo := goOnFrom_feeding 47 (s := composerFill (takeCut q (clearMarks u))) hfree' (by omega)
      refine hgo.trans ?_
      have hnext : next u = .feeding (u.clock + 1000) := if_pos hnear
      rw [hnext, composerFill_clock]
      rfl
    · have hgo := goOnFrom_cuts 47 (s := composerFill (takeCut q (clearMarks u))) hfree' (by omega) (by simp [howed])
      refine hgo.trans ?_
      have hnext : next u = .cutting (u.clock + 800000) !u.pen.home := if_neg hnear
      rw [hnext, ← hhome, startCut, composerFill_clock]
      rfl
  · exact ((clearMarks_unmarked_works u).mono (by simp) (by simp)).trans
      (((with_pen_works _ (clearMarks u)).mono (by simp) (by simp)).trans
        (((composerFill_works _).mono (by simp) (by simp)).trans ((setPrinter_works _ _).mono (by simp) (by simp))))
  · obtain ⟨hfeed, howed, _, hnear⟩ := hfilled u
    have hnear' : (setPrinter (next u) (composerFill (takeCut q (clearMarks u)))).pen.nearEnd = u.pen.nearEnd := hnear
    rw [hnear'] at hnote
    rw [hpen, hsru]
    exact ⟨hfeed, howed, composerFill_unprinted _, rfl, hnote⟩

end

/-- PRINT_RESUME is refused where no halt is, under SUPPLY, and while a sensor shows. -/
theorem resume_refuses {tag : Byte} {s : State}
    (h : s.pen.paperOut = true ∨ s.pen.coverOpen = true ∨ s.pen.state = .halted .supply ∨ ∀ r, s.pen.state ≠ .halted r) :
    Refuses (.printResume tag) tag s .state := by
  refine refuses_of (h := printResume) rfl fun u hu => ?_
  unfold printResume
  rw [hu.pen]
  cases hs : s.pen.state with
  | halted r =>
    by_cases hr : r = .supply
    · exact if_pos hr
    · refine (if_neg hr).trans (if_pos ?_)
      rw [Bool.or_eq_true]
      rcases h with h | h | h | h
      · exact .inl h
      · exact .inr h
      · rw [hs] at h
        cases h
        exact absurd rfl hr
      · exact absurd hs (h r)
  | _ => rfl

end Sys2Proof.Machine
end

section
/-! Proofs about the printer: PRINT_DISCARD (R141, R60), and O49. -/

namespace Sys2Proof.Machine

open Sys2Proof

/-! ## What a discard leaves of the sale (R60, R141) -/

theorem requeue_eq (o : Sale) :
    o.requeue = { o with
      nextToQueue := match o.lines.find? fun x => x.print == .queued with
                     | some x => x.number
                     | none => o.nextToQueue
      lines := o.lines.map fun x => if x.print = .queued then { x with print := .notQueued } else x } := by
  unfold Sale.requeue Sale.firstQueued
  cases o.lines.find? fun x => x.print == .queued with
  | none => rfl
  | some l => rfl

theorem requeue_unprinted (o : Sale) : o.requeue.unprinted = o.unprinted := by
  unfold Sale.requeue Sale.unprinted
  simp only [List.map_map, Sale.mk.injEq, and_true, true_and]
  refine List.map_congr_left fun l _ => ?_
  simp only [Function.comp_apply]
  split <;> rfl

/-- The closing sale as a discard leaves it, marked incomplete. -/
def Sale.leftIncomplete (o : Sale) : Sale :=
  if o.closingKind = some .suspended then { o.requeue with incomplete := true } else { o with incomplete := true }

/-- The state with the closing sale marked, before it leaves the slot. -/
def closingMarked (o : Sale) (s : State) : State := { s with sru := { s.sru with closing := some o.leftIncomplete } }

theorem discardClosing_eq {s : State} {o : Sale} (h : s.sru.closing = some o) :
    discardClosing s = enterClosing (leaveClosing (closingMarked o s)) := by
  unfold discardClosing
  rw [h]
  rfl

/-! ## What the composer reads -/

theorem composerFill_congr {s t : State} (hsru : t.sru = s.sru) (hpen : t.pen = s.pen)
    (htable : t.tbs.headerTrailer.active = s.tbs.headerTrailer.active) (hparams : t.lli.params = s.lli.params) :
    (composerFill t).sru = (composerFill s).sru ∧ (composerFill t).pen = (composerFill s).pen := by
  unfold composerFill
  rw [hsru, hpen, htable, hparams]
  cases s.sru.printing <;> exact ⟨rfl, rfl⟩

theorem trySwap_lli_params (n : TableName) (s : State) : (trySwap n s).lli.params = s.lli.params := by
  unfold trySwap
  split <;> rfl

theorem trySwap_slot {n : TableName} {s : State} (hn : n = .item ∨ n = .code) :
    (trySwap n s).tbs.headerTrailer = s.tbs.headerTrailer ∧ (trySwap n s).tbs.font = s.tbs.font := by
  unfold trySwap
  split
  · rcases hn with rfl | rfl <;> exact ⟨rfl, rfl⟩
  · exact ⟨rfl, rfl⟩

theorem swapSlotTables_printTables (s : State) :
    (swapSlotTables s).tbs.headerTrailer = s.tbs.headerTrailer ∧ (swapSlotTables s).tbs.font = s.tbs.font := by
  obtain ⟨hh, hf⟩ := trySwap_slot (n := .item) (s := s) (.inl rfl)
  obtain ⟨hh', hf'⟩ := trySwap_slot (n := .code) (s := trySwap .item s) (.inr rfl)
  exact ⟨hh'.trans hh, hf'.trans hf⟩

/-- What entering the closing slot keeps of what the composer reads and of what waits for the printer. -/
theorem enterClosing_printTables (s : State) :
    (enterClosing s).tbs.headerTrailer = s.tbs.headerTrailer ∧ (enterClosing s).tbs.font = s.tbs.font ∧
    (enterClosing s).lli.params = s.lli.params := by
  unfold enterClosing
  split
  · split
    · rename_i o _ _ _ k _
      obtain ⟨hh, hf⟩ := swapSlotTables_printTables { s with sru := { s.sru with
        openSlot := none, closing := some { o with state := .closing, closingKind := some k } } }
      refine ⟨hh, hf, ?_⟩
      unfold swapSlotTables
      rw [trySwap_lli_params, trySwap_lli_params]
    · exact ⟨rfl, rfl, rfl⟩
  · exact ⟨rfl, rfl, rfl⟩

/-! ## The refilling of the emptied queue (R141, R182) -/

theorem refill_composes {s : State} (h : s.printTablesWait = false) : refill s = composerFill s := by
  rw [refill, h]
  rfl

theorem with_free_works (n : Nat) (s : State) : Works [.free] [] s { s with free := n } :=
  Works.of rfl rfl rfl rfl fun p hp => by
    cases p with
    | free => exact absurd (List.mem_singleton_self _) hp
    | _ => rfl

theorem refill_works (s : State) : Works [.free, .sale, .printer, .tables] [13] s (refill s) := by
  have hswap (x : State) : Works [.free, .sale, .printer, .tables] [13] x (swapPrintTables x) :=
    (swapPrintTables_works x).mono (fun p hp => by
      unfold State.tableParts at hp
      split at hp <;> simp at hp ⊢
      exact .inr (.inr (.inr hp))) (by simp)
  have hfill (x : State) : Works [.free, .sale, .printer, .tables] [13] x (composerFill x) :=
    (composerFill_works x).mono (by simp) (by simp)
  have hcounted : Works [.free, .sale, .printer, .tables] [13] s { s with free := s.free + 1 } :=
    (with_free_works _ s).mono (by simp) (by simp)
  unfold refill
  split
  · split
    · exact hcounted.trans ((hswap _).trans (hfill _))
    · exact hcounted.trans ((hfill _).trans (hswap _))
  · exact hfill s

theorem refill_unprinted (s : State) : (refill s).sru.unprinted = s.sru.unprinted := by
  unfold refill
  split
  · split
    · rw [composerFill_unprinted, swapPrintTables_sru]
    · rw [swapPrintTables_sru, composerFill_unprinted]
  · exact composerFill_unprinted s

theorem refill_pen (s : State) :
    (refill s).pen = { s.pen with queue := (refill s).pen.queue, context := (refill s).pen.context } := by
  unfold refill
  split
  · split
    · rw [composerFill_pen, swapPrintTables_pen]
    · rw [swapPrintTables_pen, composerFill_pen]
  · rw [composerFill_pen]

theorem refill_pbu (s : State) : (refill s).pbu = s.pbu := (refill_works s).part (p := .budget) (by decide)

theorem Standing.refill {s : State} {n : Notice} (h : Standing s n) (hk : n.kind ≠ 13) : Standing (refill s) n := by
  unfold Machine.refill
  have hcounted : Standing { s with free := s.free + 1 } n := h.of_notices rfl
  split
  · split
    · exact (hcounted.swapPrintTables hk).composerFill
    · exact hcounted.composerFill.swapPrintTables hk
  · exact h.composerFill

/-! ## The discard -/

/-- The printer emptied and the sale dealt with, before the composer fills the queue again. -/
def saleDiscarded (s : State) : State := discardSale { s with pen := s.pen.discard }

/-- The discard up to the going on of the printer. -/
def discarded (s : State) : State := refill (saleDiscarded s)

theorem discardPrinting_eq (r : HaltReason) (s : State) :
    discardPrinting r s = if (discarded s).causeCleared r then raisePrinter (goOn (discarded s)) else discarded s := rfl

theorem saleDiscarded_closing {s : State} {o : Sale} (h : s.sru.closing = some o) :
    saleDiscarded s = enterClosing (leaveClosing (closingMarked o { s with pen := s.pen.discard })) := by
  have he : saleDiscarded s = discardClosing { s with pen := s.pen.discard } := by
    unfold saleDiscarded discardSale
    rw [h]
  exact he.trans (discardClosing_eq (s := { s with pen := s.pen.discard }) h)

theorem saleDiscarded_open {s : State} {o : Sale} (hc : s.sru.closing = none) (ho : s.sru.openSlot = some o) :
    saleDiscarded s = { s with
      sru := { s.sru with openSlot := some o.requeue }
      pen := { s.pen.discard with context := { s.pen.context with header := false } } } := by
  unfold saleDiscarded discardSale
  rw [hc, ho]
  rfl

theorem saleDiscarded_none {s : State} (hc : s.sru.closing = none) (ho : s.sru.openSlot = none) :
    saleDiscarded s = { s with pen := s.pen.discard } := by
  unfold saleDiscarded discardSale
  rw [hc, ho]

theorem saleDiscarded_works (s : State) : Works [.sale, .printer, .tables] [9, 13] s (saleDiscarded s) := by
  have hemptied : Works [.sale, .printer, .tables] [9, 13] s { s with pen := s.pen.discard } :=
    (with_pen_works _ s).mono (by simp) (by simp)
  cases hc : s.sru.closing with
  | some o =>
    have he : saleDiscarded s = discardClosing { s with pen := s.pen.discard } := by
      unfold saleDiscarded discardSale
      rw [hc]
    rw [he]
    exact hemptied.trans ((discardClosing_works _).mono (by simp) (by simp))
  | none =>
    cases ho : s.sru.openSlot with
    | some o =>
      rw [saleDiscarded_open hc ho]
      exact ((setOpen_works o.requeue s).mono (by simp) (by simp)).trans ((with_pen_works _ _).mono (by simp) (by simp))
    | none =>
      rw [saleDiscarded_none hc ho]
      exact hemptied

/-- The printer, once the sale is dealt with: emptied, and its header may enter again. -/
theorem saleDiscarded_pen (s : State) :
    (saleDiscarded s).pen = { s.pen.discard with context := (saleDiscarded s).pen.context } := by
  cases hc : s.sru.closing with
  | some o =>
    rw [saleDiscarded_closing hc, enterClosing_pen, leaveClosing_pen]
    rfl
  | none =>
    cases ho : s.sru.openSlot with
    | some o =>
      rw [saleDiscarded_open hc ho]
    | none =>
      rw [saleDiscarded_none hc ho]

theorem discarded_works (s : State) : Works [.free, .sale, .printer, .tables] [9, 13] s (discarded s) :=
  ((saleDiscarded_works s).mono (by simp) (by simp)).trans ((refill_works _).mono (by simp) (by simp))

theorem discarded_pen (s : State) :
    (discarded s).pen = { s.pen.discard with queue := (discarded s).pen.queue, context := (discarded s).pen.context } := by
  rw [discarded, refill_pen, saleDiscarded_pen]

theorem discarded_pbu (s : State) : (discarded s).pbu = s.pbu := (discarded_works s).part (p := .budget) (by decide)

theorem discarded_unprinted (s : State) : (discarded s).sru.unprinted = (saleDiscarded s).sru.unprinted :=
  refill_unprinted _

theorem discarded_causeCleared (r : HaltReason) (s : State) : (discarded s).causeCleared r = s.causeCleared r := by
  cases r <;> (unfold State.causeCleared; rw [discarded_pen, discarded_pbu]) <;> rfl

theorem saleDiscarded_printTablesWait (s : State) : (saleDiscarded s).printTablesWait = s.printTablesWait := by
  cases hc : s.sru.closing with
  | some o =>
    rw [saleDiscarded_closing hc]
    obtain ⟨hh, hf, _⟩ := enterClosing_printTables (leaveClosing (closingMarked o { s with pen := s.pen.discard }))
    have htbs : (leaveClosing (closingMarked o { s with pen := s.pen.discard })).tbs = s.tbs :=
      (leaveClosing_works _).part (p := .tables) (by decide)
    unfold State.printTablesWait
    rw [hh, hf, htbs]
  | none =>
    cases ho : s.sru.openSlot with
    | some o =>
      rw [saleDiscarded_open hc ho]
      rfl
    | none =>
      rw [saleDiscarded_none hc ho]
      rfl

/-- What the printer and the sales are after the discard, whether or not the cause has cleared. -/
theorem discardPrinting_leaves (r : HaltReason) (s : State) :
    (discardPrinting r s).sru.unprinted = (saleDiscarded s).sru.unprinted ∧
    (discardPrinting r s).pen.paperMark = false ∧ (discardPrinting r s).pen.coverMark = false := by
  rw [discardPrinting_eq]
  have hpaper : (discarded s).pen.paperMark = false := by
    rw [discarded_pen]
    rfl
  have hcover : (discarded s).pen.coverMark = false := by
    rw [discarded_pen]
    rfl
  split
  · obtain ⟨_, hp, hc, _⟩ := goOn_sensors (discarded s)
    exact ⟨(goOn_unprinted _).trans (discarded_unprinted s), hp hpaper, hc hcover⟩
  · exact ⟨discarded_unprinted s, hpaper, hcover⟩

theorem discardPrinting_cleared {r : HaltReason} {s : State} (h : s.causeCleared r = true) :
    discardPrinting r s = raisePrinter (goOn (discarded s)) := by
  rw [discardPrinting_eq, discarded_causeCleared, h]
  rfl

theorem discardPrinting_stays {r : HaltReason} {s : State} (h : s.causeCleared r = false) :
    discardPrinting r s = discarded s := by
  rw [discardPrinting_eq, discarded_causeCleared, h]
  rfl

theorem discardPrinting_standing {r : HaltReason} {s : State} (h : s.causeCleared r = true) :
    Standing (discardPrinting r s) (.printer (discardPrinting r s).pen.state s.pen.nearEnd) := by
  obtain ⟨⟨hnear, _⟩, _⟩ := goOn_sensors (discarded s)
  have hnear' : (goOn (discarded s)).pen.nearEnd = s.pen.nearEnd := by
    rw [hnear, discarded_pen]
    rfl
  have hstands := standing_raise (.printer (goOn (discarded s)).pen.state (goOn (discarded s)).pen.nearEnd) (goOn (discarded s))
  have hstate : (discardPrinting r s).pen.state = (goOn (discarded s)).pen.state := by
    rw [discardPrinting_cleared h]
    rfl
  rw [hnear'] at hstands
  rw [hstate, discardPrinting_cleared h, raisePrinter, hnear']
  exact hstands

theorem Standing.discardPrinting {r : HaltReason} {s : State} {n : Notice} (h : Standing (saleDiscarded s) n)
    (h12 : n.kind ≠ 12) (h13 : n.kind ≠ 13) : Standing (discardPrinting r s) n := by
  have hd : Standing (discarded s) n := h.refill h13
  rw [discardPrinting_eq]
  split
  · exact (hd.goOn h12 h13).raised _ (fun he => h12 he.symm)
  · exact hd

theorem discardPrinting_works (r : HaltReason) (s : State) :
    Works [.free, .sale, .printer, .budget, .till, .weighing, .tables] [2, 9, 12, 13] s (discardPrinting r s) := by
  have hd : Works [.free, .sale, .printer, .budget, .till, .weighing, .tables] [2, 9, 12, 13] s (discarded s) :=
    (discarded_works s).mono (by simp) (by simp)
  rw [discardPrinting_eq]
  split
  · refine hd.trans (((goOn_works _).mono (fun p hp => ?_) (by simp)).trans ((raisePrinter_works _).mono (by simp) (by simp)))
    unfold State.goParts State.grantParts State.tableParts at hp
    (repeat' split at hp) <;> simp at hp ⊢ <;> tauto
  · exact hd

end Sys2Proof.Machine
end

section
/-! Proofs about the printer: O49, the clauses of PRINT_DISCARD (R141) and of printing outside sales (R142). -/

namespace Sys2Proof.Machine

open Sys2Proof

/-! ## PRINT_DISCARD (R141) -/

theorem printDiscard_eq {u : State} {r : HaltReason} (h : u.pen.state = .halted r) :
    printDiscard u = okay [] (discardPrinting r u) := by
  rw [printDiscard, h]

theorem AtRouter.causeCleared {i : Instr} {s u : State} (h : AtRouter i s u) (r : HaltReason) :
    u.causeCleared r = s.causeCleared r := by
  obtain ⟨q, rfl⟩ := h.eq
  cases r <;> rfl

theorem AtRouter.printTablesWait {i : Instr} {s u : State} (h : AtRouter i s u) : u.printTablesWait = s.printTablesWait := by
  obtain ⟨q, rfl⟩ := h.eq
  rfl

theorem works_params {ps : List Part} {ks : List Nat} {s t : State} (h : Works ps ks s t) (hp : Part.link ∉ ps) :
    t.lli.params = s.lli.params := by
  have hlink := congrArg Lli.params (show _ = _ from h.part (p := .link) hp)
  exact hlink

/-- What stands of the printer where the cause of the halt has not cleared. -/
theorem discardPrinting_halted {r : HaltReason} {s : State} (hs : s.pen.state = .halted r) (h : s.causeCleared r = false) :
    (discardPrinting r s).pen.state = .halted r ∧ (discardPrinting r s).pen.feed = 0 ∧
    (discardPrinting r s).pen.owed = none ∧
    (s.printTablesWait = false → discardPrinting r s = composerFill (saleDiscarded s)) := by
  rw [discardPrinting_stays h, discarded_pen]
  refine ⟨hs, rfl, rfl, fun hw => ?_⟩
  rw [discarded, refill_composes (by rw [saleDiscarded_printTablesWait]; exact hw)]

/-- The composer fills the emptied queue for the sales that result, whatever tables have swapped for the open slot. -/
theorem composerFill_saleDiscarded {s : State} {o : Sale} {left : Sru} (hc : s.sru.closing = some o)
    (hleft : (leaveClosing (closingMarked o { s with pen := s.pen.discard })).sru = left) :
    (composerFill (saleDiscarded s)).sru = (composerFill { s with sru := left.entered, pen := s.pen.discard }).sru ∧
    (composerFill (saleDiscarded s)).pen = (composerFill { s with sru := left.entered, pen := s.pen.discard }).pen := by
  have he := saleDiscarded_closing hc
  obtain ⟨hh, _, hparams⟩ := enterClosing_printTables (leaveClosing (closingMarked o { s with pen := s.pen.discard }))
  have hworks := leaveClosing_works (closingMarked o { s with pen := s.pen.discard })
  have htbs : (leaveClosing (closingMarked o { s with pen := s.pen.discard })).tbs = s.tbs :=
    hworks.part (p := .tables) (by decide)
  have hlli := works_params hworks (by decide)
  refine composerFill_congr ?_ ?_ ?_ ?_
  · show _ = left.entered
    rw [he, enterClosing_sru, hleft]
  · show _ = s.pen.discard
    rw [he, enterClosing_pen, leaveClosing_pen]
    rfl
  · show _ = s.tbs.headerTrailer.active
    rw [he, hh, htbs]
  · show _ = s.lli.params
    rw [he, hparams, hlli]
    rfl

/-- The discard of a closing sale, told from what the leaving of the slot left. -/
theorem discard_closing_serves {tag : Byte} {s : State} {r : HaltReason} {o : Sale} (hs : s.pen.state = .halted r)
    (hc : s.sru.closing = some o) (news : SaleNews) (left : Sru → Sru)
    (hleft : ∀ u : State, leaveClosing (closingMarked o u) = raiseSale o.leftIncomplete news { u with sru := left u.sru }) :
    Serves (.printDiscard tag) tag s .ok (fun _ => []) [.free, .sale, .printer, .budget, .till, .weighing, .tables]
      [2, 9, 12, 13] fun u t =>
        let emptied : State := { u with
          sru := (left u.sru).entered
          pen := { u.pen with queue := [], feed := 0, owed := none, paperMark := false, coverMark := false } }
        Notified t (.sale o.leftIncomplete.tag news o.leftIncomplete.incomplete) ∧
        t.sru.unprinted = (left u.sru).entered.unprinted ∧ t.pen.paperMark = false ∧ t.pen.coverMark = false ∧
        (s.causeCleared r = true → Notified t (.printer t.pen.state u.pen.nearEnd)) ∧
        (s.causeCleared r = false → t.pen.state = .halted r ∧ t.pen.feed = 0 ∧ t.pen.owed = none ∧
          (s.printTablesWait = false → t.sru = (composerFill emptied).sru ∧ t.pen = (composerFill emptied).pen)) := by
  refine serves_of (h := printDiscard) rfl fun u hu => ?_
  have hstate : u.pen.state = .halted r := by
    rw [hu.pen]
    exact hs
  have hclosing : u.sru.closing = some o := by
    rw [hu.sru]
    exact hc
  have hmarked := hleft { u with pen := u.pen.discard }
  have hbody : saleDiscarded u = enterClosing (leaveClosing (closingMarked o { u with pen := u.pen.discard })) :=
    saleDiscarded_closing hclosing
  have hstands : Standing (saleDiscarded u) (.sale o.leftIncomplete.tag news o.leftIncomplete.incomplete) := by
    rw [hbody, hmarked]
    exact (standing_raise _ _).enterClosing (by simp [Notice.kind])
  have hsru : (saleDiscarded u).sru = (left u.sru).entered := by
    rw [hbody, enterClosing_sru, hmarked]
    rfl
  obtain ⟨hunprinted, hpaper, hcover⟩ := discardPrinting_leaves r u
  rw [hsru] at hunprinted
  rw [printDiscard_eq hstate, ← hu.causeCleared r, ← hu.printTablesWait]
  refine ⟨rfl, discardPrinting_works r u, .inr (by simp), ?_⟩
  intro emptied
  rw [finish_sru, finish_pen, respond_sru, respond_pen]
  refine ⟨notified_respond (hstands.discardPrinting (by simp [Notice.kind]) (by simp [Notice.kind])) (by simp [Notice.kind]),
    hunprinted, hpaper, hcover, fun h => notified_respond (discardPrinting_standing h) (by simp [Notice.kind]), fun h => ?_⟩
  obtain ⟨hst, hfeed, howed, hfills⟩ := discardPrinting_halted hstate h
  refine ⟨hst, hfeed, howed, fun hw => ?_⟩
  have hleftsru : (leaveClosing (closingMarked o { u with pen := u.pen.discard })).sru = left u.sru := by
    rw [hmarked]
    rfl
  obtain ⟨hfillsru, hfillpen⟩ := composerFill_saleDiscarded hclosing hleftsru
  show (discardPrinting r u).sru = _ ∧ (discardPrinting r u).pen = _
  rw [hfills hw]
  exact ⟨hfillsru, hfillpen⟩

/-- A discard with no sale to deal with and no table waiting. -/
theorem discard_alone_serves {tag : Byte} {s : State} {r : HaltReason} (hs : s.pen.state = .halted r)
    (ho : s.sru.openSlot = none) (hc : s.sru.closing = none) (hw : s.printTablesWait = false) :
    Serves (.printDiscard tag) tag s .ok (fun _ => []) [.printer] [12] fun u t =>
      t.pen.queue = [] ∧ t.pen.feed = 0 ∧ t.pen.owed = none ∧ t.pen.paperMark = false ∧ t.pen.coverMark = false ∧
      (s.causeCleared r = true → s.pbu.warning = false → t.pen.state = .idle ∧ Notified t (.printer .idle u.pen.nearEnd)) ∧
      (s.causeCleared r = false → t.pen.state = .halted r) := by
  refine serves_of (h := printDiscard) rfl fun u hu => ?_
  have hstate : u.pen.state = .halted r := by
    rw [hu.pen]
    exact hs
  have huo : u.sru.openSlot = none := by
    rw [hu.sru]
    exact ho
  have huc : u.sru.closing = none := by
    rw [hu.sru]
    exact hc
  let emptied : State := { u with pen := { u.pen.discard with context := u.pen.context.follow none } }
  have hdisc : discarded u = emptied := by
    have hbody := saleDiscarded_none huc huo
    rw [discarded, refill_composes (by rw [saleDiscarded_printTablesWait, hu.printTablesWait]; exact hw), hbody]
    unfold composerFill Sru.printing
    simp only [huc, huo]
    rfl
  have hwait : emptied.printTablesWait = false := hu.printTablesWait.trans hw
  have hdetail {x : State} (h : Works [.printer] [12] u x) : u.wch.detail = x.wch.detail ∨ 2 ∈ [12] :=
    .inl (detail_of_works h (by decide))
  have hemptied : Works [.printer] [12] u emptied := (with_pen_works _ u).mono (by simp) (by simp)
  rw [printDiscard_eq hstate, ← hu.causeCleared r, ← hu.pbu]
  cases hclear : u.causeCleared r with
  | false =>
    rw [discardPrinting_stays hclear, hdisc]
    refine ⟨rfl, hemptied, hdetail hemptied, ?_⟩
    rw [finish_pen, respond_pen]
    exact ⟨rfl, rfl, rfl, rfl, rfl, fun h => (by cases h), fun _ => hstate⟩
  | true =>
    rw [discardPrinting_cleared hclear, hdisc]
    have hgo : goOn emptied = if u.pbu.warning then raisePrinter (setPrinter (.halted .supply) emptied)
        else setPrinter .idle emptied := by
      split
      · rename_i hwarn
        have hhalts : emptied.Halts := .inr (.inr hwarn)
        rw [goOn_halts hhalts]
        exact swapPrintTables_idle (s := raisePrinter (setPrinter (.halted .supply) emptied)) hwait
      · rename_i hwarn
        have hfree : emptied.Unhalted := ⟨rfl, rfl, Bool.eq_false_iff.mpr hwarn⟩
        rw [goOn_rests hfree rfl rfl rfl]
        exact swapPrintTables_idle (s := setPrinter .idle emptied) hwait
    have hworks : Works [.printer] [12] u (raisePrinter (goOn emptied)) := by
      rw [hgo]
      split
      · exact hemptied.trans (((setPrinter_works _ _).mono (by simp) (by simp)).trans
          (((raisePrinter_works _).mono (by simp) (by simp)).trans ((raisePrinter_works _).mono (by simp) (by simp))))
      · exact hemptied.trans (((setPrinter_works _ _).mono (by simp) (by simp)).trans
          ((raisePrinter_works _).mono (by simp) (by simp)))
    have hpen : (goOn emptied).pen = { emptied.pen with state := (goOn emptied).pen.state } := by
      rw [hgo]
      split <;> rfl
    refine ⟨rfl, hworks, hdetail hworks, ?_⟩
    rw [finish_pen, respond_pen]
    show (goOn emptied).pen.queue = _ ∧ (goOn emptied).pen.feed = _ ∧ (goOn emptied).pen.owed = _ ∧
      (goOn emptied).pen.paperMark = _ ∧ (goOn emptied).pen.coverMark = _ ∧ _
    rw [hpen]
    refine ⟨rfl, rfl, rfl, rfl, rfl, fun _ hwarn => ?_, fun h => by cases h⟩
    rw [hwarn] at hgo
    have hgo' : goOn emptied = setPrinter .idle emptied := hgo
    rw [hgo']
    exact ⟨rfl, notified_respond (standing_raise (.printer .idle u.pen.nearEnd) (setPrinter .idle emptied)) (by simp [Notice.kind])⟩

/-- A discard with the open sale the printing one: its QUEUED lines return, and its header may enter again. -/
theorem discard_open_serves {tag : Byte} {s : State} {r : HaltReason} {o : Sale} (hs : s.pen.state = .halted r)
    (hc : s.sru.closing = none) (ho : s.sru.openSlot = some o) (hw : s.printTablesWait = false) :
    Serves (.printDiscard tag) tag s .ok (fun _ => []) [.sale, .printer, .budget, .till, .weighing, .tables] [2, 12, 13]
      fun u t =>
        let emptied : State := { u with
          sru := { u.sru with openSlot := some o.requeue }
          pen := { u.pen with
            queue := [], feed := 0, owed := none, paperMark := false, coverMark := false
            context := { u.pen.context with header := false } } }
        t.sru.unprinted = u.sru.unprinted ∧ t.pen.paperMark = false ∧ t.pen.coverMark = false ∧
        (s.causeCleared r = false → t.sru = (composerFill emptied).sru ∧ t.pen = (composerFill emptied).pen) := by
  refine serves_of (h := printDiscard) rfl fun u hu => ?_
  have hstate : u.pen.state = .halted r := by
    rw [hu.pen]
    exact hs
  have huo : u.sru.openSlot = some o := by
    rw [hu.sru]
    exact ho
  have huc : u.sru.closing = none := by
    rw [hu.sru]
    exact hc
  have hbody := saleDiscarded_open huc huo
  have hdisc : discarded u = composerFill (saleDiscarded u) := by
    rw [discarded, refill_composes (by rw [saleDiscarded_printTablesWait, hu.printTablesWait]; exact hw)]
  have hsale : Works [.sale, .printer] [] u (saleDiscarded u) := by
    rw [hbody]
    exact ((setOpen_works o.requeue u).mono (by simp) (by simp)).trans ((with_pen_works _ _).mono (by simp) (by simp))
  have hfilled : Works [.sale, .printer, .budget, .till, .weighing, .tables] [2, 12, 13] u (discarded u) := by
    rw [hdisc]
    exact (hsale.mono (by simp) (by simp)).trans ((composerFill_works _).mono (by simp) (by simp))
  have hworks : Works [.sale, .printer, .budget, .till, .weighing, .tables] [2, 12, 13] u (discardPrinting r u) := by
    rw [discardPrinting_eq]
    split
    · refine hfilled.trans (((goOn_works _).mono (fun p hp => ?_) (by simp)).trans ((raisePrinter_works _).mono (by simp) (by simp)))
      unfold State.goParts State.grantParts State.tableParts at hp
      (repeat' split at hp) <;> simp at hp ⊢ <;> tauto
    · exact hfilled
  have hsru : (saleDiscarded u).sru.unprinted = u.sru.unprinted := by
    rw [hbody]
    unfold Sru.unprinted
    simp [huo, requeue_unprinted]
  obtain ⟨hunprinted, hpaper, hcover⟩ := discardPrinting_leaves r u
  rw [printDiscard_eq hstate, ← hu.causeCleared r]
  refine ⟨rfl, hworks, .inr (by simp), ?_⟩
  intro emptied
  rw [finish_sru, finish_pen, respond_sru, respond_pen]
  refine ⟨hunprinted.trans hsru, hpaper, hcover, fun h => ?_⟩
  show (discardPrinting r u).sru = _ ∧ (discardPrinting r u).pen = _
  rw [discardPrinting_stays h, hdisc, hbody]
  exact ⟨rfl, rfl⟩

/-! ## Printing outside sales (R142) -/

section

variable {e : QueueEntry} {bad : Option Reason} {u : State}

theorem printOutside_refused (h : u.slotsEmpty = false) : printOutside e bad u = refuse .state u := by
  unfold printOutside
  rw [h]
  rfl

theorem printOutside_bad {r : Reason} (h : u.slotsEmpty = true) : printOutside e (some r) u = refuse r u := by
  unfold printOutside
  rw [h]
  rfl

theorem printOutside_full (h : u.slotsEmpty = true) (hq : 48 ≤ u.pen.queue.length) :
    printOutside e none u = refuse .busy u := by
  unfold printOutside
  rw [h]
  exact if_pos hq

theorem printOutside_enters (h : u.slotsEmpty = true) (hq : u.pen.queue.length < 48) :
    printOutside e none u = okay [] (enqueue e u) := by
  unfold printOutside
  rw [h]
  exact if_neg (Nat.not_le.mpr hq)

end

/-- With both slots empty the printer's going on leaves the sales as they are: the composer has none to read. -/
theorem goOnFrom_sru_of_empty (fuel : Nat) {s : State} (ho : s.sru.openSlot = none) (hc : s.sru.closing = none) :
    (goOnFrom fuel s).sru = s.sru := by
  induction fuel generalizing s with
  | zero => rfl
  | succ fuel ih =>
    rcases s.halts_or_unhalted with h | h
    · have he : goOnFrom (fuel + 1) s = haltAt s := by
        unfold goOnFrom
        rw [haltTest_halts h]
      rw [he]
      exact (haltTest_works (haltTest_halts h)).2
    · by_cases hf : 0 < s.pen.feed
      · rw [goOnFrom_feeding _ h hf]
        rfl
      · by_cases how : s.pen.owed = none
        · have hf0 : s.pen.feed = 0 := by omega
          have htaken (x : Pen) : (goOnFrom fuel (composerFill { s with pen := x })).sru = s.sru := by
            obtain ⟨hfill, _⟩ := composerFill_empty (s := { s with pen := x }) ho hc
            rw [ih (by rw [hfill]; exact ho) (by rw [hfill]; exact hc), hfill]
          cases hq : s.pen.queue with
          | nil =>
            have he : goOnFrom (fuel + 1) s = swapPrintTables (setPrinter .idle s) := by
              simp [goOnFrom, haltTest_unhalted h, hf0, how, hq]
            rw [he, swapPrintTables_sru]
            rfl
          | cons e q =>
            cases e with
            | feed rows =>
              rw [goOnFrom_feedEntry _ h hf0 how hq]
              exact htaken _
            | cut =>
              rw [goOnFrom_cutEntry _ h hf0 how hq]
              exact htaken _
            | line l =>
              have he : goOnFrom (fuel + 1) s = if s.pen.headHot then setPrinter .hotWait s else startRow l s := by
                simp [goOnFrom, haltTest_unhalted h, hf0, how, hq]
              rw [he]
              split
              · rfl
              · exact startRow_sru l s
        · rw [goOnFrom_cuts _ h (by omega) how]
          rfl

theorem Works.without_sale {ps : List Part} {ks : List Nat} {s t : State} (h : Works (.sale :: ps) ks s t)
    (hsru : t.sru = s.sru) : Works ps ks s t := by
  obtain ⟨hpending, hsending, hresponses, hparts, hnotices⟩ := h
  refine ⟨hpending, hsending, hresponses, fun p hp => ?_, hnotices⟩
  by_cases hs : p = .sale
  · rw [hs]
    exact hsru
  · exact hparts p (by simp [hs, hp])

/-- An entry that enters with both slots empty changes what a printer that goes on may change, and no sale (R135). -/
theorem enqueue_works {u : State} (e : QueueEntry) (ho : u.sru.openSlot = none) (hc : u.sru.closing = none) :
    Works u.printParts u.printKinds u (enqueue e u) := by
  have hwoken := wakePrinter_works { u with pen := { u.pen with queue := u.pen.queue ++ [e] } }
  have hsru : (wakePrinter { u with pen := { u.pen with queue := u.pen.queue ++ [e] } }).sru = u.sru := by
    unfold wakePrinter
    split
    · exact goOnFrom_sru_of_empty _ ho hc
    · rfl
  have hentered : Works u.printParts u.printKinds u { u with pen := { u.pen with queue := u.pen.queue ++ [e] } } :=
    (with_pen_works _ u).mono (fun p hp => by
      unfold State.printParts
      split <;> simp at hp ⊢ <;> simp [hp]) (by simp)
  exact hentered.trans (hwoken.without_sale hsru)

theorem enqueue_waits {u : State} (e : QueueEntry) (h : u.pen.state ≠ .idle) :
    enqueue e u = { u with pen := { u.pen with queue := u.pen.queue ++ [e] } } :=
  if_neg fun hi => h hi.1

/-- The three requests of R142: each asks for one entry, its fields in range. -/
def AsksFor (i : Instr) (tag : Byte) (e : QueueEntry) : Prop :=
  (∃ text double cut, text.length ≤ 32 ∧ i = .printText tag text double cut ∧
    e = .line ⟨.text, none, none, text ++ List.replicate (32 - text.length) 32, double, cut, 0⟩) ∨
  (∃ rows, 1 ≤ rows ∧ rows ≤ 255 ∧ i = .printFeed tag rows ∧ e = .feed rows) ∨ (i = .printCut tag ∧ e = .cut)

theorem exec_asksFor {i : Instr} {tag : Byte} {e : QueueEntry} (h : AsksFor i tag e) (s : State) :
    exec i s = request i tag (printOutside e none) s := by
  rcases h with ⟨text, double, cut, hlen, rfl, rfl⟩ | ⟨rows, hmin, hmax, rfl, rfl⟩ | ⟨rfl, rfl⟩
  · show request _ tag (printOutside _ (if 32 < text.length then some .length else none)) s = _
    rw [if_neg (by omega)]
    rfl
  · show request _ tag (printOutside _ (if rows < 1 ∨ 255 < rows then some .range else none)) s = _
    rw [if_neg (by omega)]
  · rfl

/-- Settles O49: PRINT_RESUME, PRINT_DISCARD, the entries outside sales, and their fields out of range. -/
theorem resumeDiscardAndPrintingOutsideSales : Obligations.ResumeDiscardAndPrintingOutsideSales := by
  unfold Obligations.ResumeDiscardAndPrintingOutsideSales
  intro givenUp
  refine ⟨fun tag s => ⟨fun r hs hr hp hc => ⟨fun hw => resume_warned hs hr hp hc hw, fun hw h => resume_cuts hs hr hp hc hw h,
      fun hw hcut hf => resume_feeds hs hr hp hc hw hcut hf, fun hw hcut hf ho => ⟨fun hq => ?_, fun l q hq hh => ?_,
      fun l q hq hh => ?_, fun rows q hq hrows => ?_, fun q hq => ?_⟩⟩, resume_refuses⟩,
    fun tag s => ⟨fun r hs => ⟨fun ho hc hw => discard_alone_serves hs ho hc hw, fun o hc hk => ?_, fun o hc hk => ?_,
      fun o hc ho hw => ?_⟩, fun hno => ?_⟩,
    fun i tag e s he => ⟨fun ho hc hlen hidle => ?_, fun ho hc hlen hidle => ?_, fun hsale => ?_, fun ho hc hlen => ?_⟩,
    fun tag text double cut s ho hc hlen => ?_, fun tag rows s ho hc hrows => ?_⟩
  · exact resume_rests hs hr hp hc hw hcut hf ho hq
  · exact resume_hot hs hr hp hc hw hcut hf ho hq hh
  · exact resume_row hs hr hp hc hw hcut hf ho hq hh
  · exact resume_feedEntry hs hr hp hc hw hcut hf ho hq hrows
  · exact resume_cutEntry hs hr hp hc hw hcut hf ho hq
  · have hleft : o.leftIncomplete = { o with incomplete := true } := if_neg hk
    have h := discard_closing_serves (tag := tag) hs hc .released (fun x => { x with closing := none }) (fun u => by
      refine (leaveClosing_released (s := closingMarked o u) rfl ?_).trans rfl
      rw [hleft]
      exact hk)
    rw [hleft] at h
    exact h
  · have hleft : o.leftIncomplete = { o.requeue with incomplete := true } := if_pos hk
    let back : Sale := { o.leftIncomplete with state := .suspended, closingKind := none }
    have h := discard_closing_serves (tag := tag) hs hc (.live .suspended)
      (fun x => { x with closing := none, stack := back :: x.stack }) (fun u => by
        refine (leaveClosing_suspended (s := closingMarked o u) rfl ?_).trans rfl
        rw [hleft]
        exact hk)
    have hback : back = { o with
        state := .suspended, closingKind := none, incomplete := true
        nextToQueue := match o.lines.find? fun x => x.print == .queued with
                       | some x => x.number
                       | none => o.nextToQueue
        lines := o.lines.map fun x => if x.print = .queued then { x with print := .notQueued } else x } := by
      show ({ o.leftIncomplete with state := .suspended, closingKind := none } : Sale) = _
      rw [hleft, requeue_eq] <;> rfl
    intro u hu
    obtain ⟨t, ht, hanswer, hchanges, hnote, hsru, hrest⟩ := h u hu
    refine ⟨t, ht, hanswer, hchanges, ?_⟩
    have hstack : t.sru.stack = back :: u.sru.stack := by
      have hentered (x : Sru) : x.entered.stack = x.stack := by
        unfold Sru.entered
        split
        · split <;> rfl
        · rfl
      have h1 := congrArg Sru.stack hsru
      exact h1.trans (hentered _)
    rw [hleft] at hnote
    have hleaves : Notified t (.sale o.tag (.live .suspended) true) ∧ t.sru.stack = back :: u.sru.stack ∧
        givenUp r s u t { u.sru with closing := none, stack := back :: u.sru.stack } := ⟨hnote, hstack, hsru, hrest⟩
    rw [hback] at hleaves
    exact hleaves
  · have h := discard_open_serves (tag := tag) hs hc ho hw
    rw [requeue_eq] at h
    exact h
  · refine refuses_of (h := printDiscard) rfl fun u hu => ?_
    unfold printDiscard
    rw [hu.pen]
    cases hs : s.pen.state with
    | halted r => exact absurd hs (hno r)
    | _ => rfl
  · refine serves_of (exec_asksFor he s) fun u hu => ?_
    have hlen' : u.pen.queue.length < 48 := by
      rw [hu.pen]
      exact hlen
    have hidle' : u.pen.state ≠ .idle := by
      rw [hu.pen]
      exact hidle
    rw [printOutside_enters (by rw [hu.slotsEmpty]; exact (slotsEmpty_iff s).mpr ⟨ho, hc⟩) hlen', enqueue_waits e hidle']
    refine ⟨rfl, with_pen_works _ u, .inl rfl, ?_⟩
    rw [finish_pen, respond_pen]
    rfl
  · have h := serves_of_printing (P := fun _ _ => True) (fs := fun _ => []) (v := .ok) [] [] (by simp) (exec_asksFor he s)
      fun u hu => by
        have hlen' : u.pen.queue.length < 48 := by
          rw [hu.pen]
          exact hlen
        refine ⟨enqueue e u, printOutside_enters (by rw [hu.slotsEmpty]; exact (slotsEmpty_iff s).mpr ⟨ho, hc⟩) hlen', ?_, trivial⟩
        exact enqueue_works e (by rw [hu.sru]; exact ho) (by rw [hu.sru]; exact hc)
    exact h
  · refine refuses_of (exec_asksFor he s) fun u hu => printOutside_refused ?_
    rw [hu.slotsEmpty, Bool.eq_false_iff]
    intro hempty
    obtain ⟨ho, hc⟩ := (slotsEmpty_iff s).mp hempty
    exact hsale.elim (fun h => h ho) (fun h => h hc)
  · refine refuses_of (exec_asksFor he s) fun u hu => printOutside_full ?_ ?_
    · rw [hu.slotsEmpty]
      exact (slotsEmpty_iff s).mpr ⟨ho, hc⟩
    · rw [hu.pen]
      exact hlen
  · refine refuses_of (h := printOutside _ (if 32 < text.length then some .length else none)) rfl fun u hu => ?_
    rw [if_pos hlen]
    exact printOutside_bad (by rw [hu.slotsEmpty]; exact (slotsEmpty_iff s).mpr ⟨ho, hc⟩)
  · refine refuses_of (h := printOutside _ (if rows < 1 ∨ 255 < rows then some .range else none)) rfl fun u hu => ?_
    rw [if_pos hrows]
    exact printOutside_bad (by rw [hu.slotsEmpty]; exact (slotsEmpty_iff s).mpr ⟨ho, hc⟩)

end Sys2Proof.Machine
end

section
/-! Proofs about the pulse budget: O50, the expiry of a grant and the supply warning (R146, R148, R151). -/

namespace Sys2Proof.Machine

open Sys2Proof

/-! ## The expiry of a grant (R146, R151) -/

theorem grantExpires_eq {s : State} {g : Grant} {gs : List Grant} (h : s.pbu.grants = g :: gs) :
    grantExpires s = examine { reach (g.start + 20000) s with pbu := { s.pbu with grants := gs } } := by
  unfold grantExpires
  rw [h]
  rfl

theorem examine_quiet {s : State} (hs : s.pbu.solenoidReq.isSome = true → s.pbu.solenoidFits = false)
    (hp : ∀ r, s.pbu.phaseReq = some r → s.pbu.phaseFits r = false) : examine s = s := by
  rcases examine_cases s with ⟨hreq, hfits, _⟩ | ⟨r, hreq, hfits, _⟩ | e
  · rw [hs hreq] at hfits
    cases hfits
  · rw [hp r hreq] at hfits
    cases hfits
  · exact e

theorem examine_solenoid {s : State} (hreq : s.pbu.solenoidReq.isSome = true) (hfits : s.pbu.solenoidFits = true) :
    examine s = grantSolenoid s := by
  unfold examine
  exact if_pos (by rw [hreq, hfits]; rfl)

theorem clock_budget_works (due : Nat) (x : Pbu) (s : State) :
    Works [.clock, .budget] [] s { reach due s with pbu := x } :=
  ((reach_works due s).mono (by simp) (by simp)).trans ((with_pbu_works x (reach due s)).mono (by simp) (by simp))

/-! ## The printer leaves a halt (R135) -/

/-- An entry that moves paper without a glyph row. -/
def QueueEntry.movesPaper : QueueEntry → Bool
  | .line _ => false
  | .feed _ => true
  | .cut => true

theorem salePrint_line (tag : Nat) (source : PrintSource) (line : Nat) (text : List Byte) :
    (salePrint tag source line text).movesPaper = false := rfl

theorem textAmountLines_lines (tag line : Nat) (text amount : List Byte) :
    ∀ e ∈ textAmountLines tag line text amount, e.movesPaper = false := by
  unfold textAmountLines
  split <;> simp [salePrint_line]

/-- The composer writes print lines alone. -/
theorem printLines_lines (o : Sale) (d : Nat) (l : Line) : ∀ e ∈ o.printLines d l, e.movesPaper = false := by
  have htext := textAmountLines_lines o.tag l.number
  unfold Sale.printLines
  dsimp only
  split
  · simp [salePrint_line]
  · cases l.kind with
    | item =>
      dsimp only
      cases l.quantity with
      | none => simpa using htext l.printText (decimalText d l.amount)
      | some q =>
        intro e he
        rcases List.mem_append.mp he with he | he
        · exact htext _ _ e he
        · dsimp only at he
          split at he
          · cases he
          · rw [List.mem_singleton.mp he]
            rfl
    | weighed =>
      dsimp only
      cases l.mass with
      | none => simpa using htext l.printText (decimalText d l.amount)
      | some m =>
        intro e he
        rcases List.mem_append.mp he with he | he
        · exact htext _ _ e he
        · rw [List.mem_singleton.mp he]
          rfl
    | card =>
      dsimp only
      cases l.card with
      | none => simpa using htext (ascii "CARD") (decimalText d l.amount)
      | some c =>
        intro e he
        rcases List.mem_append.mp he with he | he
        · exact htext _ _ e he
        · rcases List.mem_pair.mp he with he | he <;> rw [he] <;> rfl
    | _ => exact htext _ _

theorem headerGroup_lines (headers : List HeaderEntry) (o : Sale) : ∀ e ∈ headerGroup headers o, e.movesPaper = false := by
  intro e he
  rcases List.mem_append.mp he with he | he
  · obtain ⟨h, _, rfl⟩ := List.mem_map.mp he
    rfl
  · split at he
    · rw [List.mem_singleton.mp he]
      rfl
    · cases he

theorem closingTail_lines (headers : List HeaderEntry) (d : Nat) (o : Sale) (k : ClosingKind) :
    ∀ e ∈ closingTail headers d o k, e.movesPaper = false := by
  cases k with
  | settled =>
    intro e he
    rcases List.mem_append.mp he with he | he
    · rcases List.mem_append.mp he with he | he
      · rcases List.mem_append.mp he with he | he
        · rw [List.mem_singleton.mp he]
          rfl
        · split at he
          · rw [List.mem_singleton.mp he]
            rfl
          · cases he
      · obtain ⟨h, _, rfl⟩ := List.mem_map.mp he
        rfl
    · rw [List.mem_singleton.mp he]
      rfl
  | suspended =>
    intro e he
    rw [List.mem_singleton.mp he]
    rfl
  | aborted =>
    intro e he
    rw [List.mem_singleton.mp he]
    rfl

/-- The entries of a queue that move paper, which bound how often the printer takes an entry and goes on (R135). -/
def paperMoves (q : List QueueEntry) : Nat := q.countP QueueEntry.movesPaper

theorem paperMoves_append_lines {q q' : List QueueEntry} (h : ∀ e ∈ q', e.movesPaper = false) :
    paperMoves (q ++ q') = paperMoves q := by
  have hzero : q'.countP QueueEntry.movesPaper = 0 := List.countP_eq_zero.mpr fun e he => by
    rw [h e he]
    decide
  rw [paperMoves, List.countP_append, hzero]
  rfl

theorem composeLines_paperMoves (d fuel : Nat) (o : Sale) (q : List QueueEntry) :
    paperMoves (composeLines d fuel o q).2 = paperMoves q := by
  induction fuel generalizing o q with
  | zero => rfl
  | succ fuel ih =>
    unfold composeLines
    split
    · rfl
    · rename_i l _
      split
      · rfl
      · split
        · rw [ih, paperMoves_append_lines (printLines_lines o d l)]
        · rfl

theorem composerFill_paperMoves (s : State) : paperMoves (composerFill s).pen.queue = paperMoves s.pen.queue := by
  have hheader (headers : List HeaderEntry) (c : Composing) :
      paperMoves (composeHeader headers c).queue = paperMoves c.queue := by
    unfold composeHeader
    split
    · rfl
    · split
      · exact paperMoves_append_lines (headerGroup_lines headers c.sale)
      · rfl
  have hlines (d : Nat) (c : Composing) : paperMoves (composeSaleLines d c).queue = paperMoves c.queue := by
    unfold composeSaleLines
    split
    · exact composeLines_paperMoves ..
    · rfl
  have htail (headers : List HeaderEntry) (d : Nat) (c : Composing) :
      paperMoves (composeTail headers d c).queue = paperMoves c.queue := by
    unfold composeTail
    split
    · rfl
    · rename_i k _
      split
      · exact paperMoves_append_lines (closingTail_lines headers d c.sale k)
      · rfl
  unfold composerFill
  split
  · rfl
  · show paperMoves (composeTail _ _ _).queue = _
    rw [htail, hlines, hheader]

/-- Unhalted, the printer that goes on is not HALTED after it: each entry taken leaves one fewer that moves paper. -/
theorem goOnFrom_not_halted (fuel : Nat) {s : State} (h : s.Unhalted) (hq : paperMoves s.pen.queue < fuel) (r : HaltReason) :
    (goOnFrom fuel s).pen.state ≠ .halted r := by
  induction fuel generalizing s with
  | zero => omega
  | succ fuel ih =>
    by_cases hf : 0 < s.pen.feed
    · rw [goOnFrom_feeding _ h hf]
      exact fun he => (by cases he)
    · have hf0 : s.pen.feed = 0 := by omega
      by_cases ho : s.pen.owed = none
      · have htaken {x : Pen} {e : QueueEntry} {q : List QueueEntry} (hs : s.pen.queue = e :: q) (he : e.movesPaper = true)
            (hp : x.paperMark = s.pen.paperMark) (hc : x.coverMark = s.pen.coverMark) (hx : x.queue = q) :
            (goOnFrom fuel (composerFill { s with pen := x })).pen.state ≠ .halted r := by
          refine ih (filled_unhalted h hp hc) ?_
          have hcount : paperMoves s.pen.queue = paperMoves q + 1 := by
            rw [hs, paperMoves, List.countP_cons_of_pos he]
            rfl
          rw [composerFill_paperMoves]
          show paperMoves x.queue < fuel
          rw [hx]
          omega
        cases hs : s.pen.queue with
        | nil =>
          have he : goOnFrom (fuel + 1) s = swapPrintTables (setPrinter .idle s) := by
            simp [goOnFrom, haltTest_unhalted h, hf0, ho, hs]
          rw [he, swapPrintTables_pen]
          exact fun he => (by cases he)
        | cons e q =>
          cases e with
          | feed rows =>
            rw [goOnFrom_feedEntry _ h hf0 ho hs]
            exact htaken hs rfl rfl rfl rfl
          | cut =>
            rw [goOnFrom_cutEntry _ h hf0 ho hs]
            exact htaken hs rfl rfl rfl rfl
          | line l =>
            have he : goOnFrom (fuel + 1) s = if s.pen.headHot then setPrinter .hotWait s else startRow l s := by
              simp [goOnFrom, haltTest_unhalted h, hf0, ho, hs]
            rw [he]
            split
            · exact fun he => (by cases he)
            · obtain ⟨phases, stage, hstate⟩ := startRow_printing l s
              rw [hstate]
              exact fun he => (by cases he)
      · rw [goOnFrom_cuts _ h hf0 ho]
        exact fun he => (by cases he)

end Sys2Proof.Machine
end

section
/-! Proofs about the pulse budget: O50. -/

namespace Sys2Proof.Machine

open Sys2Proof

/-! ## A printer that waits for no phase -/

/-- The printer waits for no phase, so that no grant of one moves it. -/
def Pen.still (p : Pen) : Prop := ∀ clock, p.state.strobe clock = p.state

theorem still_of_rest {p : Pen} (h : p.state = .idle ∨ p.state = .hotWait ∨ ∃ r, p.state = .halted r) : p.still := by
  intro clock
  rcases h with h | h | ⟨r, h⟩ <;> rw [h] <;> rfl

theorem examine_still {s : State} (h : s.pen.still) : (examine s).pen = s.pen := by
  rcases examine_cases s with ⟨_, _, e⟩ | ⟨r, _, _, e⟩ | e <;> rw [e]
  · rfl
  · show { s.pen with state := s.pen.state.strobe s.clock } = s.pen
    rw [h]

theorem holdImposed_still {s : State} (h : s.pen.still) : (holdImposed s).pen = s.pen := by
  unfold holdImposed
  split
  · exact examine_still (s := { s with
      tlc := { s.tlc with state := .closed }, pbu := { s.pbu with solenoidReq := none } }) h
  · rfl

theorem holdLifted_still {s : State} (h : s.pen.still) : (holdLifted s).pen = s.pen := by
  unfold holdLifted towardGrant
  split
  · split
    · rfl
    · exact examine_still (s := { s with
        tlc := { s.tlc with state := .waitGrant }, pbu := { s.pbu with solenoidReq := some s.clock } }) h
  · rfl

/-! ## The supply warning (R148, R109, R138, R56) -/

/-- SUPPLY is raised with the warning's new level. -/
def warningSet (on : Bool) (s : State) : State :=
  raise (.supply on) { s with pins := { s.pins with supplyWarning := on }, pbu := { s.pbu with warning := on } }

theorem warningSet_works (on : Bool) (s : State) : Works [.pins, .budget] [10] s (warningSet on s) := by
  have h : Works [.pins, .budget] [] s
      { s with pins := { s.pins with supplyWarning := on }, pbu := { s.pbu with warning := on } } :=
    Works.of rfl rfl rfl rfl fun p hp => by
      cases p with
      | pins => exact absurd (by simp) hp
      | budget => exact absurd (by simp) hp
      | _ => rfl
  exact (h.mono (by simp) (by simp)).raised (by simp [Notice.kind])

theorem warningChanges_on {s : State} (h : s.pbu.warning = false) :
    warningChanges true s = printerWarned (holdImposed (warningSet true s)) := by
  have hne : s.pbu.warning ≠ true := by
    rw [h]
    decide
  exact if_neg hne

theorem warningChanges_off {s : State} (h : s.pbu.warning = true) :
    warningChanges false s = storeCleared (printerCleared (holdLifted (warningSet false s))) := by
  have hne : s.pbu.warning ≠ false := by
    rw [h]
    decide
  exact if_neg hne

theorem printerWarned_halts {s : State} (h : s.pen.state = .idle ∨ s.pen.state = .hotWait) :
    printerWarned s = enterHalt .supply s := by
  unfold printerWarned
  rcases h with h | h <;> rw [h]

theorem printerWarned_cases (s : State) :
    printerWarned s = enterHalt .supply s ∨ printerWarned s = s := by
  unfold printerWarned
  cases s.pen.state with
  | idle => exact .inl rfl
  | hotWait => exact .inl rfl
  | _ => exact .inr rfl

theorem printerCleared_cases (s : State) :
    (s.pen.state = .halted .supply ∧ printerCleared s = raisePrinter (goOn s)) ∨ printerCleared s = s := by
  unfold printerCleared
  split
  · exact .inl ⟨‹_›, rfl⟩
  · exact .inr rfl

theorem enterHalt_part {p : Part} (r : HaltReason) (s : State) (hp : p ≠ .printer) (ht : p ≠ .tables) :
    exactPart s (enterHalt r s) p :=
  (enterHalt_works r s).part (by
    unfold State.tableParts
    split <;> simp [hp, ht])

theorem storeCleared_sst (s : State) :
    (storeCleared s).sst =
      if s.sst.pendingTotals = true ∧ s.sst.inFlight = none then
        { s.sst with
          pendingTotals := false
          inFlight := some ⟨.totals s.sst.image.saleCounter s.sst.image.grandTotal, s.clock + 50000⟩ }
      else s.sst := by
  unfold storeCleared
  by_cases h : s.sst.pendingTotals = true ∧ s.sst.inFlight = none
  · obtain ⟨hp, hi⟩ := h
    simp [hp, hi, startTotals, startWrite]
  · have hb : ¬(s.sst.pendingTotals && s.sst.inFlight.isNone) = true := by
      rw [Bool.and_eq_true, Option.isNone_iff_eq_none]
      exact h
    rw [if_neg h, if_neg hb]

theorem storeCleared_works (s : State) : Works [.store] [] s (storeCleared s) := by
  unfold storeCleared startTotals startWrite
  split
  · exact Works.of rfl rfl rfl rfl fun p hp => by
      cases p with
      | store => exact absurd (List.mem_singleton_self _) hp
      | _ => rfl
  · exact Works.refl _ _ s

theorem storeCleared_lli (s : State) : (storeCleared s).lli = s.lli := by
  unfold storeCleared startTotals startWrite
  split <;> rfl

/-- Settles O50: the expiry of a grant, the warning coming on, and its clearing. -/
theorem grantsExpireAndTheSupplyWarningHolds : Obligations.GrantsExpireAndTheSupplyWarningHolds := by
  unfold Obligations.GrantsExpireAndTheSupplyWarningHolds
  refine ⟨fun s g gs hgs => ⟨fun hsol hph => ?_, fun x hsol harb hpulse hsum => ?_, fun x hsol hsum harb hfirst => ?_⟩,
    fun s hw => ?_, fun s hw => ?_⟩
  · let left : State := { reach (g.start + 20000) s with pbu := { s.pbu with grants := gs } }
    have he : grantExpires s = left := (grantExpires_eq hgs).trans (examine_quiet (s := left)
      (fun h => by
        rw [show left.pbu.solenoidReq = none from hsol] at h
        cases h)
      (fun r h => by
        rw [show left.pbu.phaseReq = none from hph] at h
        cases h))
    have hworks : Works [.clock, .budget] [] s (grantExpires s) := by
      rw [he]
      exact clock_budget_works _ _ s
    refine does_of (f := grantExpires) rfl hworks (.inl (detail_of_works hworks (by decide))) ?_
    rw [finish_clock, finish_pbu, he]
    exact ⟨rfl, rfl⟩
  · let left : State := { reach (g.start + 20000) s with pbu := { s.pbu with grants := gs } }
    have he : grantExpires s = grantSolenoid left := (grantExpires_eq hgs).trans (examine_solenoid (s := left)
      (by rw [show left.pbu.solenoidReq = some x from hsol]; rfl)
      (by simp [left, Pbu.solenoidFits, harb, hpulse, solenoidCost, budget, hsum]))
    have hworks : Works [.clock, .budget, .till, .weighing] [2] s (grantExpires s) := by
      rw [he]
      exact ((clock_budget_works _ _ s).mono (by simp) (by simp)).trans ((grantSolenoid_works left).mono (by simp) (by simp))
    refine does_of (f := grantExpires) rfl hworks (.inr (by simp)) ?_
    rw [finish_clock, finish_pbu, finish_tlc, finish_wch, he]
    exact ⟨rfl, rfl, rfl, rfl⟩
  · let left : State := { reach (g.start + 20000) s with pbu := { s.pbu with grants := gs } }
    have he : grantExpires s = left := (grantExpires_eq hgs).trans (examine_quiet (s := left)
      (fun _ => by
        have hfull : ¬grantSum gs + 40 ≤ 64 := by omega
        simp [left, Pbu.solenoidFits, solenoidCost, budget, hfull])
      (fun r h => by
        have hf := hfirst r h
        simp [left, Pbu.phaseFits, hf, hsol]))
    have hworks : Works [.clock, .budget] [] s (grantExpires s) := by
      rw [he]
      exact clock_budget_works _ _ s
    refine does_of (f := grantExpires) rfl hworks (.inl (detail_of_works hworks (by decide))) ?_
    rw [finish_pbu, he]
  · let warned := warningSet true s
    let held := holdImposed warned
    have he : warningChanges true s = printerWarned held := warningChanges_on hw
    have hstands : Standing held (.supply true) := Standing.of_notices (s := warned) (standing_raise (.supply true) _)
      (congrArg Lli.notices (holdImposed_lli warned))
    have htables : held.printTablesWait = s.printTablesWait := by
      have htbs : held.tbs = warned.tbs := (holdImposed_works warned).part (p := .tables) (by
        unfold State.withdrawParts
        split <;> decide)
      unfold State.printTablesWait
      rw [htbs]
      rfl
    have hheld : Works ([.pins, .budget, .printer] ++ s.withdrawParts ++ (if s.printTablesWait then [.tables] else []))
        [10, 12, 13] s held := by
      refine ((warningSet_works true s).mono (by simp) (by simp)).trans ((holdImposed_works warned).mono (fun p hp => ?_) (by simp))
      have hp' : p ∈ s.withdrawParts := hp
      simp [hp']
    have hworks : Works ([.pins, .budget, .printer] ++ s.withdrawParts ++ (if s.printTablesWait then [.tables] else []))
        [10, 12, 13] s (warningChanges true s) := by
      rw [he]
      rcases printerWarned_cases held with e | e <;> rw [e]
      · refine hheld.trans ((enterHalt_works .supply held).mono (fun p hp => ?_) (by simp))
        have hp' : p ∈ Part.printer :: (if s.printTablesWait then [Part.tables] else []) := by
          rw [← htables]
          exact hp
        simp only [List.mem_cons, List.mem_append] at hp' ⊢
        tauto
      · exact hheld
    have hweigh : Part.weighing ∉ [.pins, .budget, .printer] ++ s.withdrawParts ++ (if s.printTablesWait then [.tables] else []) := by
      unfold State.withdrawParts
      (repeat' split) <;> decide
    have hkept : (printerWarned held).pbu = held.pbu ∧ (printerWarned held).tlc = held.tlc := by
      rcases printerWarned_cases held with e | e <;> rw [e]
      · exact ⟨enterHalt_part (p := .budget) _ _ (by decide) (by decide), enterHalt_part (p := .till) _ _ (by decide) (by decide)⟩
      · exact ⟨rfl, rfl⟩
    obtain ⟨hpbu, htlc⟩ := hkept
    have hwarning : held.pbu.warning = true := by
      show (holdImposed warned).pbu.warning = true
      unfold holdImposed withdrawSolenoid
      split
      · rw [examine_warning]
        rfl
      · rfl
    have hsupply : Standing (printerWarned held) (.supply true) := by
      rcases printerWarned_cases held with e | e <;> rw [e]
      · exact hstands.enterHalt .supply (by simp [Notice.kind]) (by simp [Notice.kind])
      · exact hstands
    refine does_of (f := warningChanges true) rfl hworks (.inl (detail_of_works hworks hweigh)) ?_
    rw [finish_pbu, finish_tlc, finish_pen, he, hpbu, htlc]
    refine ⟨hwarning, hsupply.finish s (by simp [Notice.kind]), fun hwait => ?_, fun hrest => ?_⟩
    · obtain ⟨_, hreq⟩ := holdImposed_withdraws (s := warned) hwait
      refine ⟨?_, hreq⟩
      show (holdImposed warned).tlc = _
      rw [holdImposed, if_pos (show warned.tlc.state = .waitGrant from hwait)]
      exact (withdrawSolenoid_works { warned with tlc := { warned.tlc with state := .closed } }).part (p := .till) (by decide)
    · have hpen : held.pen = s.pen := holdImposed_still (s := warned) (still_of_rest (by
        rcases hrest with h | h
        · exact .inl h
        · exact .inr (.inl h)))
      have hhalt := printerWarned_halts (s := held) (by rw [hpen]; exact hrest)
      have hnote := (enterHalt_standing .supply held).finish s (by simp [Notice.kind])
      rw [hpen] at hnote
      rw [hhalt, enterHalt_pen]
      exact ⟨rfl, hnote⟩
  · let cleared := warningSet false s
    let lifted := holdLifted cleared
    have he : warningChanges false s = storeCleared (printerCleared lifted) := warningChanges_off hw
    have hlifted : Works [.pins, .budget, .printer, .till, .weighing, .store, .sale, .tables] [2, 10, 12, 13] s lifted :=
      ((warningSet_works false s).mono (by simp) (by simp)).trans ((holdLifted_works cleared).mono (by simp) (by simp))
    have hwarning : lifted.pbu.warning = false := (holdLifted_warning cleared).trans rfl
    have hstands : Standing lifted (.supply false) := (standing_raise (.supply false) _).holdLifted
    have hgo : Works [.pins, .budget, .printer, .till, .weighing, .store, .sale, .tables] [2, 10, 12, 13] lifted
        (raisePrinter (goOn lifted)) := by
      refine ((goOn_works lifted).mono (fun p hp => ?_) (by simp)).trans ((raisePrinter_works _).mono (by simp) (by simp))
      unfold State.goParts State.grantParts State.tableParts at hp
      (repeat' split at hp) <;> simp at hp ⊢ <;> tauto
    have hcleared : Works [.pins, .budget, .printer, .till, .weighing, .store, .sale, .tables] [2, 10, 12, 13] s
        (printerCleared lifted) := by
      rcases printerCleared_cases lifted with ⟨_, e⟩ | e <;> rw [e]
      · exact hlifted.trans hgo
      · exact hlifted
    have hworks : Works [.pins, .budget, .printer, .till, .weighing, .store, .sale, .tables] [2, 10, 12, 13] s
        (warningChanges false s) := by
      rw [he]
      exact hcleared.trans ((storeCleared_works _).mono (by simp) (by simp))
    have hstore : (storeCleared (printerCleared lifted)).pbu = (printerCleared lifted).pbu ∧
        (storeCleared (printerCleared lifted)).sru = (printerCleared lifted).sru ∧
        (storeCleared (printerCleared lifted)).pen = (printerCleared lifted).pen :=
      ⟨(storeCleared_works _).part (p := .budget) (by decide), (storeCleared_works _).part (p := .sale) (by decide),
        (storeCleared_works _).part (p := .printer) (by decide)⟩
    obtain ⟨hpbu, hsru, hpen⟩ := hstore
    have hclock : (printerCleared lifted).clock = s.clock := hcleared.part (p := .clock) (by decide)
    have hprinter : (printerCleared lifted).pbu.warning = false ∧
        (printerCleared lifted).sru.unprinted = s.sru.unprinted ∧ Standing (printerCleared lifted) (.supply false) ∧
        (printerCleared lifted).sst = s.sst := by
      have hsale : lifted.sru = s.sru := (holdLifted_works cleared).part (p := .sale) (by decide)
      have hstoreKept : lifted.sst = s.sst := (holdLifted_works cleared).part (p := .store) (by decide)
      rcases printerCleared_cases lifted with ⟨_, e⟩ | e <;> rw [e]
      · obtain ⟨_, _, _, hkept⟩ := goOn_sensors lifted
        have hgoStore : (goOn lifted).sst = lifted.sst := goOn_part (p := .store) lifted (by
          unfold State.goParts State.grantParts State.tableParts
          (repeat' split) <;> decide)
        refine ⟨hkept.trans hwarning, ?_, ?_, hgoStore.trans hstoreKept⟩
        · show (goOn lifted).sru.unprinted = _
          rw [goOn_unprinted, hsale]
        · exact (hstands.goOn (by simp [Notice.kind]) (by simp [Notice.kind])).raised _ (by simp [Notice.kind])
      · exact ⟨hwarning, by rw [hsale], hstands, hstoreKept⟩
    obtain ⟨hoff, hsales, hsupply, hsst⟩ := hprinter
    have hsupply' : Standing (storeCleared (printerCleared lifted)) (.supply false) :=
      hsupply.of_notices (by rw [storeCleared_lli])
    refine does_of (f := warningChanges false) rfl hworks (.inr (by simp)) ?_
    rw [finish_pbu, finish_sru, finish_sst, finish_pen, he, hpbu, hsru, hpen, storeCleared_sst, hsst, hclock]
    refine ⟨hoff, hsupply'.finish s (by simp [Notice.kind]), hsales, fun hp hi => if_pos ⟨hp, hi⟩, fun hp => if_neg ?_,
      fun hhalt hpaper hcover hlen r => ?_⟩
    · rw [hp]
      exact fun h => (by cases h.1)
    · have hpenKept : lifted.pen = s.pen := holdLifted_still (s := cleared) (still_of_rest (.inr (.inr ⟨_, hhalt⟩)))
      have hfree : lifted.Unhalted := by
        unfold State.Unhalted
        rw [hpenKept]
        exact ⟨hpaper, hcover, hwarning⟩
      have hgoes : printerCleared lifted = raisePrinter (goOn lifted) := by
        unfold printerCleared
        rw [hpenKept, hhalt]
      rw [hgoes]
      refine goOnFrom_not_halted 49 hfree ?_ r
      rw [hpenKept]
      exact Nat.lt_succ_of_le ((List.countP_le_length).trans hlen)

end Sys2Proof.Machine
end

section
/-! Proofs about the accessory port: rounds, visits, presence and the mirror (R157 to R162, R169, R170). -/

namespace Sys2Proof.Machine

open Sys2Proof

/-! ## Visits (R159) -/

theorem firstFrame_some {q : List DownFrame} {n : Nat} {f : DownFrame} (h : firstFrame q n = some f) :
    f ∈ q ∧ f.unit = n := by
  unfold firstFrame at h
  split at h
  · rename_i g hg
    cases h
    have hp := List.find?_some hg
    simp only [Bool.and_eq_true, beq_iff_eq] at hp
    exact ⟨List.mem_of_find?_eq_some hg, hp.1⟩
  · exact ⟨List.mem_of_find?_eq_some h, by simpa using List.find?_some h⟩

theorem firstFrame_none {q : List DownFrame} {n : Nat} (h : ∀ f ∈ q, f.unit ≠ n) : firstFrame q n = none := by
  cases hf : firstFrame q n with
  | none => rfl
  | some f =>
    obtain ⟨hmem, hunit⟩ := firstFrame_some hf
    exact absurd hunit (h f hmem)

theorem firstFrame_exists {q : List DownFrame} {n : Nat} (h : ∃ f ∈ q, f.unit = n) : ∃ f, firstFrame q n = some f := by
  obtain ⟨f, hmem, hunit⟩ := h
  unfold firstFrame
  split
  · exact ⟨_, rfl⟩
  · refine Option.isSome_iff_exists.mp (List.find?_isSome.mpr ⟨f, hmem, ?_⟩)
    exact beq_iff_eq.mpr hunit

theorem visit_acp (n : Nat) (s : State) :
    (visit n s).acp = { s.acp with
      visit := (firstFrame s.acp.queue n).getD ⟨n, 0, [], false⟩
      queue := match firstFrame s.acp.queue n with
               | some f => s.acp.queue.erase f
               | none => s.acp.queue } := by
  unfold visit
  cases firstFrame s.acp.queue n <;> rfl

theorem visit_unit {n : Nat} {s : State} {f : DownFrame} (h : (visit n s).acp.visit = some f) : f.unit = n := by
  rw [visit_acp] at h
  cases hf : firstFrame s.acp.queue n with
  | some g =>
    rw [hf] at h
    cases h
    exact (firstFrame_some hf).2
  | none =>
    rw [hf] at h
    cases h
    rfl

/-- A visit is to a unit of the list that is not skipped. -/
theorem visitFrom_visits {ns : List Nat} {s : State} {f : DownFrame} (h : (visitFrom ns s).acp.visit = some f) :
    f.unit ∈ ns ∧ s.skips f.unit = false := by
  induction ns with
  | nil => cases h
  | cons n rest ih =>
    unfold visitFrom at h
    split at h
    · obtain ⟨hmem, hskip⟩ := ih h
      exact ⟨List.mem_cons_of_mem _ hmem, hskip⟩
    · rename_i hskip
      have hunit := visit_unit h
      rw [hunit]
      exact ⟨List.mem_cons_self .., Bool.eq_false_iff.mpr hskip⟩

theorem visitFrom_none {ns : List Nat} {s : State} (h : ∀ m ∈ ns, s.skips m = true) :
    visitFrom ns s = { s with acp := { s.acp with visit := none } } := by
  induction ns with
  | nil => rfl
  | cons n rest ih =>
    unfold visitFrom
    rw [if_pos (h n (List.mem_cons_self ..))]
    exact ih fun m hm => h m (List.mem_cons_of_mem _ hm)

/-- The round visits the first unit of an ascending list that is not skipped. -/
theorem visitFrom_first {ns : List Nat} {s : State} {n : Nat} (hs : ns.Pairwise (· < ·)) (hn : n ∈ ns)
    (hvisit : s.skips n = false) (hskip : ∀ m ∈ ns, m < n → s.skips m = true) : visitFrom ns s = visit n s := by
  induction ns with
  | nil => cases hn
  | cons m rest ih =>
    obtain ⟨hlt, hrest⟩ := List.pairwise_cons.mp hs
    unfold visitFrom
    rcases List.mem_cons.mp hn with rfl | hmem
    · exact if_neg (by rw [hvisit]; decide)
    · rw [if_pos (hskip m (List.mem_cons_self ..) (hlt n hmem))]
      exact ih hrest hmem fun k hk hkn => hskip k (List.mem_cons_of_mem _ hk) hkn

theorem visitAfter_works (n : Nat) (s : State) : Works [.accessory] [] s (visitAfter n s) := visitFrom_works _ s

/-- A later visit of the round is to a unit after this one that is not left for the next round. -/
theorem visitAfter_visits {n : Nat} {s : State} {f : DownFrame} (h : (visitAfter n s).acp.visit = some f) :
    n < f.unit ∧ f.unit ∉ s.acp.later := by
  obtain ⟨hmem, hskip⟩ := visitFrom_visits h
  refine ⟨by simpa using (List.mem_filter.mp hmem).2, fun hlater => ?_⟩
  have hcontains : s.acp.later.contains f.unit = true := List.contains_iff_mem.mpr hlater
  unfold State.skips at hskip
  rw [hcontains] at hskip
  simp at hskip

theorem visitAfter_acp (n : Nat) (s : State) :
    (visitAfter n s).acp.units = s.acp.units ∧ (∀ f ∈ (visitAfter n s).acp.queue, f ∈ s.acp.queue) ∧
    (visitAfter n s).acp.later = s.acp.later := visitFrom_acp _ s

/-! ## Presence (R160) -/

theorem unit_mem {n : Nat} (h1 : 1 ≤ n) (h4 : n ≤ 4) : n ∈ unitNumbers := by
  simp only [unitNumbers, List.mem_cons, List.not_mem_nil, or_false]
  omega

theorem setPresence_works (n : Nat) (p : Presence) (m : Nat) (s : State) : Works [.accessory] [] s (setPresence n p m s) :=
  withAcp_works _ s

theorem raiseAccessory_works (c : AccCause) (n : Nat) (r : Option BlockReason) (l : Option Nat) (s : State) :
    Works [] [14] s (raiseAccessory c n r l s) := (Works.refl _ _ s).raised (by simp [Notice.kind])

theorem mirrorSync_lli (s : State) : (mirrorSync s).lli = s.lli := by
  unfold mirrorSync
  split <;> rfl

theorem becomePresent_works (n : Nat) (s : State) : Works [.accessory] [14] s (becomePresent n s) :=
  ((setPresence_works n .present 0 s).mono (by simp) (by simp)).trans
    (((raiseAccessory_works _ _ _ _ _).mono (by simp) (by simp)).trans ((mirrorSync_works _).mono (by simp) (by simp)))

theorem becomeAbsent_works (n : Nat) (s : State) : Works [.accessory] [14] s (becomeAbsent n s) :=
  ((setPresence_works n .absent 0 s).mono (by simp) (by simp)).trans
    (((raiseAccessory_works _ _ _ _ _).mono (by simp) (by simp)).trans
      (((withAcp_works _ _).mono (by simp) (by simp)).trans
        (((raiseAccessory_works _ _ _ _ _).mono (by simp) (by simp)).trans ((mirrorSync_works _).mono (by simp) (by simp)))))

theorem noteAnswer_works (n : Nat) (s : State) : Works [.accessory] [14] s (noteAnswer n s) := by
  unfold noteAnswer
  split
  · exact becomePresent_works n s
  · exact becomePresent_works n s
  · exact (setPresence_works n .present 0 s).mono (by simp) (by simp)

/-- An answer makes the unit PRESENT with no miss counted; the queue and the units left for later stay. -/
theorem noteAnswer_acp (n : Nat) (s : State) :
    (noteAnswer n s).acp.units = s.acp.units.set n { s.acp.units.get n with presence := .present, misses := 0 } ∧
    (noteAnswer n s).acp.later = s.acp.later ∧ (noteAnswer n s).acp.held = s.acp.held ∧
    (noteAnswer n s).acp.blocked = s.acp.blocked := by
  have hp : (becomePresent n s).acp.units = s.acp.units.set n { s.acp.units.get n with presence := .present, misses := 0 } ∧
      (becomePresent n s).acp.later = s.acp.later ∧ (becomePresent n s).acp.held = s.acp.held ∧
      (becomePresent n s).acp.blocked = s.acp.blocked := by
    unfold becomePresent mirrorSync
    split <;> exact ⟨rfl, rfl, rfl, rfl⟩
  unfold noteAnswer
  split
  · exact hp
  · exact hp
  · exact ⟨rfl, rfl, rfl, rfl⟩

theorem noteAnswer_standing {n : Nat} {s : State} (hn : n ∈ unitNumbers) (h : (s.acp.units.get n).presence ≠ .present) :
    Standing (noteAnswer n s) (.accessory .presence n .present none none s.acp.blocked) := by
  have hp : Standing (becomePresent n s) (.accessory .presence n .present none none s.acp.blocked) := by
    have hstands := standing_raise (.accessory .presence n ((setPresence n .present 0 s).acp.units.get n).presence none none
      s.acp.blocked) (setPresence n .present 0 s)
    have hget : ((setPresence n .present 0 s).acp.units.get n).presence = .present := by
      show ((s.acp.units.set n _).get n).presence = _
      rw [get_set_unit _ _ hn hn, if_pos rfl]
    rw [hget] at hstands
    refine hstands.of_notices ?_
    rw [becomePresent, mirrorSync_lli, raiseAccessory, hget]
    rfl
  unfold noteAnswer
  split
  · exact hp
  · exact hp
  · rename_i hpresent
    exact absurd hpresent h

theorem noteMiss_works (n : Nat) (s : State) : Works [.accessory] [14] s (noteMiss n s) := by
  unfold noteMiss
  split
  · exact becomeAbsent_works n s
  · split
    · exact becomeAbsent_works n s
    · exact (setPresence_works n .present _ s).mono (by simp) (by simp)
  · exact Works.refl _ _ s

theorem noteMiss_later (n : Nat) (s : State) : (noteMiss n s).acp.later = s.acp.later := by
  have ha : (becomeAbsent n s).acp.later = s.acp.later := by
    unfold becomeAbsent mirrorSync
    split <;> rfl
  unfold noteMiss
  split
  · exact ha
  · split
    · exact ha
    · rfl
  · rfl

theorem noteMiss_counts {n : Nat} {s : State} (hp : (s.acp.units.get n).presence = .present)
    (hm : (s.acp.units.get n).misses < 2) :
    noteMiss n s = setPresence n .present ((s.acp.units.get n).misses + 1) s := by
  unfold noteMiss
  rw [hp]
  exact if_neg (by omega)

theorem noteMiss_absent {n : Nat} {s : State}
    (h : (s.acp.units.get n).presence = .unknown ∨ ((s.acp.units.get n).presence = .present ∧ 2 ≤ (s.acp.units.get n).misses)) :
    noteMiss n s = becomeAbsent n s := by
  unfold noteMiss
  rcases h with h | ⟨h, hm⟩ <;> rw [h]
  exact if_pos (by omega)

theorem noteMiss_stays {n : Nat} {s : State} (h : (s.acp.units.get n).presence = .absent) : noteMiss n s = s := by
  unfold noteMiss
  rw [h]

theorem becomeAbsent_acp (n : Nat) (s : State) :
    (becomeAbsent n s).acp.units = s.acp.units.set n { s.acp.units.get n with presence := .absent, misses := 0 } ∧
    ∀ f ∈ (becomeAbsent n s).acp.queue, f.unit ≠ n := by
  have hq : (becomeAbsent n s).acp.queue = s.acp.queue.filter fun f => f.unit != n := by
    unfold becomeAbsent mirrorSync
    split <;> rfl
  refine ⟨?_, fun f hf => ?_⟩
  · unfold becomeAbsent mirrorSync
    split <;> rfl
  · rw [hq] at hf
    simpa using (List.mem_filter.mp hf).2

theorem becomeAbsent_standing {n : Nat} {s : State} (hn : n ∈ unitNumbers) :
    ∃ b, Standing (becomeAbsent n s) (.accessory .discard n .absent none none b) := by
  let dropped : State := dropFrames n (raiseAccessory .presence n none none (setPresence n .absent 0 s))
  have hget : (dropped.acp.units.get n).presence = .absent := by
    show ((s.acp.units.set n _).get n).presence = _
    rw [get_set_unit _ _ hn hn, if_pos rfl]
  have hstands := standing_raise (.accessory .discard n (dropped.acp.units.get n).presence none none dropped.acp.blocked) dropped
  rw [hget] at hstands
  refine ⟨dropped.acp.blocked, hstands.of_notices ?_⟩
  rw [becomeAbsent, mirrorSync_lli]
  show (raiseAccessory .discard n none none dropped).lli.notices = _
  rw [raiseAccessory, hget]

/-! ## Frames from the accessory port (R157) -/

/-- The bytes of the body gather until there are as many as the length byte said. -/
theorem finder_body {n : Nat} {found : List Frame} {rest : List Byte} :
    ∀ done, rest ≠ [] → done.length + rest.length = n →
      rest.foldl Finder.byte ⟨.body, n, done, [], found⟩ = ⟨.check, n, done ++ rest, [], found⟩ := by
  induction rest with
  | nil => exact fun _ h => absurd rfl h
  | cons b rest ih =>
    intro done _ hlen
    rw [List.length_cons] at hlen
    show rest.foldl Finder.byte ⟨if done.length + 1 < n then .body else .check, n, done ++ [b], [], found⟩ = _
    cases rest with
    | nil =>
      rw [if_neg (by simp at hlen; omega)]
      rfl
    | cons c rest =>
      rw [if_pos (by simp at hlen; omega), ih _ (by simp) (by simp at hlen ⊢; omega)]
      simp

/-- The frame that a unit sends is the one found in its bytes. -/
theorem framesIn_frameBytes {unit kind : Nat} {tag : Byte} {payload : List Byte} (hlen : payload.length ≤ 250)
    (hu : unit < 256) (hk : kind < 256) : framesIn (frameBytes unit kind tag payload) = [⟨unit, kind, tag, payload⟩] := by
  let body : List Byte := BitVec.ofNat 8 unit :: BitVec.ofNat 8 kind :: tag :: payload
  have hbody : body.length = payload.length + 3 := rfl
  have hlength : (BitVec.ofNat 8 (payload.length + 3)).toNat = payload.length + 3 := by
    rw [BitVec.toNat_ofNat]
    omega
  have hcount : Finder.byte (Finder.byte ⟨.hunt, 0, [], [], []⟩ 0xA5) (BitVec.ofNat 8 (payload.length + 3)) =
      ⟨.body, payload.length + 3, [], [], []⟩ := by
    show (if 3 ≤ (BitVec.ofNat 8 (payload.length + 3)).toNat ∧ (BitVec.ofNat 8 (payload.length + 3)).toNat ≤ 253 then _ else _) = _
    rw [hlength, if_pos (by omega)]
    rfl
  have hgather := finder_body (found := []) (rest := body) (n := payload.length + 3) [] (by simp [body]) (by simp [hbody])
  have hbytes : frameBytes unit kind tag payload = 0xA5 :: BitVec.ofNat 8 (payload.length + 3) ::
      (body ++ natBytes 2 (crc16 (BitVec.ofNat 8 (payload.length + 3) :: body)).toNat) := rfl
  obtain ⟨c, d, hcheck⟩ : ∃ c d, natBytes 2 (crc16 (BitVec.ofNat 8 (payload.length + 3) :: body)).toNat = [c, d] :=
    ⟨_, _, rfl⟩
  have hgood : checkGood (payload.length + 3) body [c, d] = true := by
    rw [checkGood, hcheck]
    exact beq_self_eq_true _
  rw [framesIn, hbytes, hcheck, List.foldl_cons, List.foldl_cons, hcount, List.foldl_append, hgather]
  show (if checkGood (payload.length + 3) body [c, d] then [frameOf body] else []) = _
  rw [if_pos hgood]
  simp [frameOf, body, Nat.mod_eq_of_lt hu, Nat.mod_eq_of_lt hk]

theorem answerIn_frameBytes {unit : Nat} {tag : Byte} {payload : List Byte} (hlen : payload.length ≤ 250) (hu : unit < 256) :
    answerIn unit (frameBytes unit 5 tag payload) = some ⟨unit, tag, payload⟩ := by
  rw [answerIn, framesIn_frameBytes hlen hu (by decide)]
  simp

/-- The answer of the unit visited is taken. -/
theorem answerArrives_takes {s : State} {v : DownFrame} {tag : Byte} {payload : List Byte} (hv : s.acp.visit = some v)
    (h4 : v.unit ≤ 4) (hlen : payload.length ≤ 250) :
    answerArrives (frameBytes v.unit 5 tag payload) s = takeAnswer ⟨v.unit, tag, payload⟩ s := by
  unfold answerArrives
  rw [hv]
  dsimp only
  rw [answerIn_frameBytes hlen (by omega)]

theorem passUp_works (f : AccFrame) (s : State) : Works [.accFrames] [] s (passUp f s) :=
  Works.of rfl rfl rfl rfl fun p hp => by
    cases p with
    | accFrames => exact absurd (List.mem_singleton_self _) hp
    | _ => rfl

theorem passUp_upFrames (f : AccFrame) (s : State) : (passUp f s).lli.upFrames = s.lli.upFrames ++ [f] := by
  simp [passUp, Lli.upFrames]

theorem upFrames_of_works {ps : List Part} {ks : List Nat} {s t : State} (h : Works ps ks s t) (hp : Part.accFrames ∉ ps) :
    t.lli.upFrames = s.lli.upFrames := by
  have hups : t.lli.accUps = s.lli.accUps := h.part (p := .accFrames) hp
  obtain ⟨_, hsending, _⟩ := h
  unfold Lli.upFrames
  rw [hsending, hups]

end Sys2Proof.Machine
end

section
/-! Proofs about the accessory port: O51. -/

namespace Sys2Proof.Machine

open Sys2Proof

/-! ## A round (R159) -/

/-- The round's start: the next one's time, and no unit left for later. -/
def roundBegun (s : State) : State :=
  { reach s.acp.roundDue s with acp := { s.acp with roundDue := max s.clock s.acp.roundDue + 20000, later := [] } }

theorem roundStarts_eq {s : State} (h : s.acp.visit = none) : roundStarts s = visitFrom unitNumbers (roundBegun s) := by
  unfold roundStarts
  rw [h]
  rfl

theorem roundBegun_skips (s : State) (m : Nat) :
    (roundBegun s).skips m = true ↔ (s.acp.units.get m).role = .none ∨
      ((s.acp.units.get m).role = .scanner ∧ s.acp.held ≠ none) ∨ 24 ≤ s.lli.accUps.length := by
  unfold State.skips roundBegun
  simp [Option.isSome_iff_ne_none, or_assoc, reach]
  exact or_congr Iff.rfl (or_congr Iff.rfl decide_eq_true_iff)

theorem visitFrom_rest (ns : List Nat) (s : State) :
    (visitFrom ns s).acp.roundDue = s.acp.roundDue ∧ (visitFrom ns s).acp.held = s.acp.held ∧
    (visitFrom ns s).acp.blocked = s.acp.blocked ∧ (visitFrom ns s).lli = s.lli := by
  induction ns with
  | nil => exact ⟨rfl, rfl, rfl, rfl⟩
  | cons n rest ih =>
    unfold visitFrom visit
    split
    · exact ih
    · split <;> exact ⟨rfl, rfl, rfl, rfl⟩

/-! ## The mirror (R169, R170) -/

theorem makeMirror_works (s : State) : Works [.accessory] [] s (makeMirror s) := by
  unfold makeMirror
  split
  · exact Works.refl _ _ s
  · exact withAcp_works _ s

theorem mirrorTick_works (s : State) : Works [.accessory] [] s (mirrorTick s) := by
  unfold mirrorTick
  split
  · exact (makeMirror_works s).trans (withAcp_works _ _)
  · split
    · exact (makeMirror_works s).trans (withAcp_works _ _)
    · exact Works.refl _ _ s

theorem makeMirror_acp (s : State) :
    (makeMirror s).acp.units = s.acp.units ∧ (makeMirror s).acp.mirrorDue = s.acp.mirrorDue ∧
    ∀ n, s.acp.units.holder .display = some n →
      (makeMirror s).acp.queue = placeMirror ⟨n, 0, s.mirrorText, true⟩ s.acp.queue := by
  unfold makeMirror
  cases s.acp.units.holder .display with
  | none => exact ⟨rfl, rfl, fun n h => by cases h⟩
  | some m =>
    refine ⟨rfl, rfl, fun n h => ?_⟩
    cases h
    rfl

theorem mirrorTick_acp (s : State) :
    (mirrorTick s).acp.units = s.acp.units ∧ (mirrorTick s).acp.mirrorDue = s.acp.mirrorDue ∧
    (mirrorTick s).acp.lastSent = s.showing ∧
    (s.showing = false → s.acp.lastSent = false → (mirrorTick s).acp.queue = s.acp.queue) ∧
    (s.showing = true ∨ s.acp.lastSent = true → (mirrorTick s).acp.queue = (makeMirror s).acp.queue) := by
  obtain ⟨hunits, hdue, _⟩ := makeMirror_acp s
  unfold mirrorTick
  cases hs : s.showing with
  | true => exact ⟨hunits, hdue, rfl, fun h => (by cases h), fun _ => rfl⟩
  | false =>
    cases hl : s.acp.lastSent with
    | true => exact ⟨hunits, hdue, rfl, fun _ h => (by cases h), fun _ => rfl⟩
    | false => exact ⟨rfl, rfl, hl, fun _ _ => rfl, fun h => (by rcases h with h | h <;> cases h)⟩

theorem placeMirror_new {f : DownFrame} {q : List DownFrame} (h : ∀ g ∈ q, g.mirror = false) (hlen : q.length < 16) :
    placeMirror f q = f :: q := by
  have hnone : q.any DownFrame.mirror = false := List.any_eq_false.mpr fun g hg => by rw [h g hg]; decide
  rw [placeMirror, hnone]
  exact if_pos hlen

theorem placeMirror_stands {f : DownFrame} {q : List DownFrame} (h : ∃ g ∈ q, g.mirror = true) :
    placeMirror f q = q.map fun g => if g.mirror then f else g :=
  if_pos (List.any_eq_true.mpr h)

/-! ## An answer (R160, R162) -/

/-- A frame of a unit that is no scanner is passed up. -/
theorem routeUp_passes {f : AccFrame} {s : State} (h : (s.acp.units.get f.unit).role ≠ .scanner) : routeUp f s = passUp f s :=
  if_neg fun hr => h hr.1

theorem noteAnswer_role {n : Nat} (hn : n ∈ unitNumbers) (s : State) :
    ((noteAnswer n s).acp.units.get n).role = (s.acp.units.get n).role := by
  rw [(noteAnswer_acp n s).1, get_set_unit _ _ hn hn, if_pos rfl]

theorem answerMissed_eq {s : State} {v : DownFrame} (h : s.acp.visit = some v) :
    answerMissed s = visitAfter v.unit (noteMiss v.unit s) := by
  unfold answerMissed
  rw [h]

/-- Settles O51: the start of a round, an answer, a miss, and the mirror timer. -/
theorem roundsPresenceAndMirror : Obligations.RoundsPresenceAndMirror := by
  unfold Obligations.RoundsPresenceAndMirror
  refine ⟨⟨fun s hv => ?_, fun s v tag payload hv h1 h4 hlen hrole => ?_, fun s v hv h1 h4 => ?_⟩, fun s due hdue => ?_⟩
  · have he := roundStarts_eq hv
    have hworks : Works [.clock, .accessory] [] s (roundStarts s) := by
      rw [he]
      exact ((reach_works s.acp.roundDue s).mono (by simp) (by simp)).trans
        (((withAcp_works _ (reach s.acp.roundDue s)).mono (by simp) (by simp)).trans
          ((visitFrom_works _ (roundBegun s)).mono (by simp) (by simp)))
    obtain ⟨hunits, _, hlater⟩ := visitFrom_acp unitNumbers (roundBegun s)
    obtain ⟨hround, _⟩ := visitFrom_rest unitNumbers (roundBegun s)
    have hclock : (roundStarts s).clock = max s.clock s.acp.roundDue := by
      rw [he]
      exact (visitFrom_works unitNumbers (roundBegun s)).part (p := .clock) (by decide)
    refine does_of (f := roundStarts) rfl hworks (.inl (detail_of_works hworks (by decide))) ?_
    rw [finish_clock, finish_acp_roundDue, finish_acp_units, finish_acp_later, finish_acp_visit, finish_acp_queue, hclock]
    refine ⟨rfl, by rw [he, hround]; rfl, by rw [he, hunits]; rfl, by rw [he, hlater]; rfl, ?_⟩
    intro skipped
    have hskips (m : Nat) : (roundBegun s).skips m = true ↔ skipped m := roundBegun_skips s m
    refine ⟨fun n hn hvisit hlower => ?_, fun hall => ?_⟩
    · have hfirst : roundStarts s = visit n (roundBegun s) := by
        rw [he]
        refine visitFrom_first (by decide) hn ?_ fun m hm hmn => (hskips m).mpr (hlower m hm hmn)
        exact Bool.eq_false_iff.mpr fun hs => hvisit ((hskips n).mp hs)
      rw [hfirst, visit_acp]
      refine ⟨fun hf => ?_, fun hno => ?_⟩
      · obtain ⟨f, hff⟩ := firstFrame_exists hf
        obtain ⟨hmem, hunit⟩ := firstFrame_some hff
        refine ⟨f, hmem, hunit, ?_⟩
        show ((firstFrame s.acp.queue n).getD _ : Option DownFrame) = _
        rw [hff]
        rfl
      · have hnone : firstFrame (roundBegun s).acp.queue n = none := firstFrame_none hno
        rw [hnone]
        exact ⟨⟨n, 0, [], false⟩, rfl, rfl, rfl⟩
    · have hnone := visitFrom_none (ns := unitNumbers) (s := roundBegun s) fun m hm => (hskips m).mpr (hall m hm)
      rw [he, hnone]
      exact ⟨rfl, rfl⟩
  · have hn := unit_mem h1 h4
    let noted := noteAnswer v.unit s
    let up : State := if payload.isEmpty then noted else passUp ⟨v.unit, tag, payload⟩ noted
    have hnotscanner : (noted.acp.units.get v.unit).role ≠ .scanner := by
      rw [noteAnswer_role hn]
      exact hrole
    have he : answerArrives (frameBytes v.unit 5 tag payload) s = visitAfter v.unit up := by
      rw [answerArrives_takes hv h4 hlen]
      show visitAfter v.unit (if payload.isEmpty then noted else routeUp ⟨v.unit, tag, payload⟩ noted) = _
      rw [routeUp_passes hnotscanner]
    have hup : Works [.accFrames] [] noted up := by
      show Works _ _ _ (if payload.isEmpty then noted else passUp ⟨v.unit, tag, payload⟩ noted)
      split
      · exact Works.refl _ _ _
      · exact passUp_works _ _
    have hacp : up.acp = noted.acp := hup.part (p := .accessory) (by decide)
    have hworks : Works [.accFrames, .accessory] [14] s (answerArrives (frameBytes v.unit 5 tag payload) s) := by
      rw [he]
      exact ((noteAnswer_works v.unit s).mono (by simp) (by simp)).trans
        ((hup.mono (by simp) (by simp)).trans ((visitAfter_works _ _).mono (by simp) (by simp)))
    obtain ⟨hunits, hlater, _⟩ := noteAnswer_acp v.unit s
    obtain ⟨hunits', _⟩ := visitAfter_acp v.unit up
    refine does_of (f := answerArrives (frameBytes v.unit 5 tag payload)) rfl hworks
      (.inl (detail_of_works hworks (by decide))) ?_
    rw [finish_upFrames, finish_acp_units, finish_acp_visit, he, hunits', hacp]
    refine ⟨?_, hunits, fun f hf => ?_, fun hp => ?_⟩
    · rw [upFrames_of_works (visitAfter_works _ _) (by decide), ← upFrames_of_works (noteAnswer_works v.unit s) (by decide)]
      show (if payload.isEmpty then noted else passUp ⟨v.unit, tag, payload⟩ noted).lli.upFrames = _
      cases payload with
      | nil => exact (List.append_nil _).symm
      | cons b bs => exact passUp_upFrames _ _
    · obtain ⟨hlt, hnot⟩ := visitAfter_visits hf
      rw [hacp, hlater] at hnot
      exact ⟨hlt, hnot⟩
    · have hnotices : (visitAfter v.unit up).lli.notices = noted.lli.notices := by
        have hl : (visitAfter v.unit up).lli = up.lli := (visitFrom_rest _ _).2.2.2
        rw [hl]
        show (if payload.isEmpty then noted else passUp ⟨v.unit, tag, payload⟩ noted).lli.notices = _
        split <;> rfl
      exact ⟨_, ((noteAnswer_standing hn hp).of_notices hnotices).finish s (by simp [Notice.kind])⟩
  · have hn := unit_mem h1 h4
    have he := answerMissed_eq hv
    obtain ⟨hunits, hqueue, _⟩ := visitAfter_acp v.unit (noteMiss v.unit s)
    have hlli : (visitAfter v.unit (noteMiss v.unit s)).lli = (noteMiss v.unit s).lli := (visitFrom_rest _ _).2.2.2
    have hworks : Works [.accessory] [14] s (answerMissed s) := by
      rw [he]
      exact (noteMiss_works v.unit s).trans ((visitAfter_works _ _).mono (by simp) (by simp))
    refine ⟨?_, fun hp hm => ?_, fun habsent => ?_, fun hp => ?_⟩
    · refine does_of (f := answerMissed) rfl hworks (.inl (detail_of_works hworks (by decide))) fun f hf => ?_
      rw [finish_acp_visit, he] at hf
      obtain ⟨hlt, hnot⟩ := visitAfter_visits hf
      rw [noteMiss_later] at hnot
      exact ⟨hlt, hnot⟩
    · have hcounts := noteMiss_counts hp hm
      have hquiet : Works [.accessory] [] s (answerMissed s) := by
        rw [he, hcounts]
        exact (setPresence_works _ _ _ s).trans (visitAfter_works _ _)
      refine does_of (f := answerMissed) rfl hquiet (.inl (detail_of_works hquiet (by decide))) ?_
      rw [finish_acp_units, he, hunits, hcounts]
      show s.acp.units.set _ { s.acp.units.get v.unit with presence := .present, misses := _ } = _
      rw [← hp]
    · have hbecomes := noteMiss_absent habsent
      obtain ⟨hset, hdropped⟩ := becomeAbsent_acp v.unit s
      obtain ⟨b, hstands⟩ := becomeAbsent_standing (s := s) hn
      refine does_of (f := answerMissed) rfl hworks (.inl (detail_of_works hworks (by decide))) ?_
      rw [finish_acp_units, finish_acp_queue, he, hunits, hbecomes]
      rw [hbecomes] at hqueue hlli
      exact ⟨hset, fun f hf => hdropped f (hqueue f hf),
        b, (hstands.of_notices (congrArg Lli.notices hlli)).finish s (by simp [Notice.kind])⟩
    · have hstays := noteMiss_stays hp
      have hquiet : Works [.accessory] [] s (answerMissed s) := by
        rw [he, hstays]
        exact visitAfter_works _ _
      refine does_of (f := answerMissed) rfl hquiet (.inl (detail_of_works hquiet (by decide))) ?_
      rw [finish_acp_units, he, hunits, hstays]
  · let reached : State := reach due { s with acp := { s.acp with mirrorDue := some (due + 200000) } }
    have he : mirrorExpires s = mirrorTick reached := by
      unfold mirrorExpires
      rw [hdue]
    have hworks : Works [.clock, .accessory] [] s (mirrorExpires s) := by
      rw [he]
      exact ((withAcp_works _ s).mono (by simp) (by simp)).trans
        (((reach_works due _).mono (by simp) (by simp)).trans ((mirrorTick_works reached).mono (by simp) (by simp)))
    have hclock : (mirrorExpires s).clock = max s.clock due := by
      rw [he]
      exact (mirrorTick_works reached).part (p := .clock) (by decide)
    obtain ⟨hunits, hnext, hlast, hquiet, hmade⟩ := mirrorTick_acp reached
    obtain ⟨_, _, hplaced⟩ := makeMirror_acp reached
    refine does_of (f := mirrorExpires) rfl hworks (.inl (detail_of_works hworks (by decide))) ?_
    rw [finish_clock, finish_acp_mirrorDue, finish_acp_units, finish_acp_lastSent, finish_acp_queue, hclock, he]
    refine ⟨rfl, hnext, hunits, hlast, hquiet, fun n hshow hholder => ⟨fun hno hlen => ?_, fun hstands => ?_⟩⟩
    · exact (hmade hshow).trans ((hplaced n hholder).trans (placeMirror_new hno hlen))
    · exact (hmade hshow).trans ((hplaced n hholder).trans (placeMirror_stands hstands))

end Sys2Proof.Machine
end

section
/-! Proofs about the code filter: the matching of a read, its check digit and its fields (R163, R164). -/

namespace Sys2Proof.Machine

open Sys2Proof

/-! ## Matching (R163) -/

theorem fits_iff (e : CodeEntry) (ds : List Byte) :
    e.fits ds = true ↔ e.lead <+: ds ∧ (e.total = 0 ∨ e.total = ds.length) := by
  have hprefix : (e.lead.length ≤ ds.length ∧ ds.take e.lead.length = e.lead) ↔ e.lead <+: ds :=
    ⟨fun h => List.prefix_iff_eq_take.mpr h.2.symm, fun h => ⟨h.length_le, (List.prefix_iff_eq_take.mp h).symm⟩⟩
  rw [← hprefix]
  simp [CodeEntry.fits]

/-- The better of the entries seen and the next one (R163). -/
def betterCode (best : Option CodeEntry) (e : CodeEntry) : Option CodeEntry :=
  match best with
  | none => some e
  | some f => if e.beats f then some e else some f

theorem matchCode_eq (table : List CodeEntry) (ds : List Byte) :
    matchCode table ds = (table.filter fun e => e.fits ds).foldl betterCode none := rfl

/-- An entry beaten by the chosen one does not beat it. -/
theorem beats_false {e f : CodeEntry}
    (h : f.lead.length < e.lead.length ∨ (f.lead.length = e.lead.length ∧ e.total ≠ 0 ∧ f.total = 0)) :
    f.beats e = false ∧ e.beats f = true := by
  unfold CodeEntry.beats
  rcases h with h | ⟨h, he, hf⟩
  · have hne : f.lead.length ≠ e.lead.length := by omega
    have hnlt : ¬e.lead.length < f.lead.length := by omega
    exact ⟨by simp [hne, hnlt], by simp [h]⟩
  · exact ⟨by simp [h, hf], by simp [h, he, hf]⟩

/-- The entry that beats every other one is what the fold keeps, once it has been seen. -/
theorem foldl_betterCode {e : CodeEntry} {l : List CodeEntry}
    (hbeats : ∀ f ∈ l, f ≠ e → f.beats e = false ∧ e.beats f = true) :
    ∀ best : Option CodeEntry, (∀ f, best = some f → f ≠ e → e.beats f = true) → (best = some e ∨ e ∈ l) →
      l.foldl betterCode best = some e := by
  induction l with
  | nil => exact fun best _ h => h.resolve_right (by simp)
  | cons f rest ih =>
    intro best hbest hseen
    have hrest := ih fun g hg => hbeats g (List.mem_cons_of_mem _ hg)
    rw [List.foldl_cons]
    by_cases hfe : f = e
    · have hnow : betterCode best f = some e := by
        rw [hfe]
        cases best with
        | none => rfl
        | some g =>
          show (if e.beats g then some e else some g) = some e
          by_cases hg : g = e
          · rw [hg]
            split <;> rfl
          · rw [hbest g rfl hg]
            rfl
      rw [hnow]
      exact hrest (some e) (fun g hg hne => absurd (Option.some.inj hg).symm hne) (.inl rfl)
    · obtain ⟨hloses, hwins⟩ := hbeats f (List.mem_cons_self ..) hfe
      refine hrest _ (fun g hg hne => ?_) ?_
      · cases best with
        | none =>
          cases hg
          exact hwins
        | some b =>
          have hg' : (if f.beats b then some f else some b) = some g := hg
          split at hg'
          · cases hg'
            exact hwins
          · cases hg'
            exact hbest _ rfl hne
      · rcases hseen with hb | hmem
        · left
          rw [hb]
          show (if f.beats e then some f else some e) = some e
          rw [hloses]
          rfl
        · exact .inr ((List.mem_cons.mp hmem).resolve_left fun h => hfe h.symm)

theorem matchCode_chosen {table : List CodeEntry} {ds : List Byte} {e : CodeEntry} (h : Chosen table ds e) :
    matchCode table ds = some e := by
  obtain ⟨⟨hmem, hfits⟩, hothers⟩ := h
  rw [matchCode_eq]
  refine foldl_betterCode (fun f hf hne => ?_) none (fun f h => by cases h)
    (.inr (List.mem_filter.mpr ⟨hmem, (fits_iff e ds).mpr hfits⟩))
  obtain ⟨hfmem, hffits⟩ := List.mem_filter.mp hf
  exact beats_false (hothers f ⟨hfmem, (fits_iff f ds).mp hffits⟩ hne)

theorem matchCode_none {table : List CodeEntry} {ds : List Byte}
    (h : ∀ e ∈ table, ¬(e.lead <+: ds ∧ (e.total = 0 ∨ e.total = ds.length))) : matchCode table ds = none := by
  have hempty : table.filter (fun e => e.fits ds) = [] :=
    List.filter_eq_nil_iff.mpr fun e he hf => h e he ((fits_iff e ds).mp hf)
  rw [matchCode_eq, hempty]
  rfl

/-! ## The check digit (R164) -/

/-- The weights from the right, from the place `k` on. -/
theorem weightedSum_zipIdx (ds : List Byte) : ∀ k,
    weightedSum (if k % 2 = 0 then 3 else 1) ds =
      ((ds.zipIdx k).map fun p => (if p.2 % 2 = 0 then 3 else 1) * (p.1.toNat - 48)).sum := by
  induction ds with
  | nil => exact fun _ => rfl
  | cons d ds ih =>
    intro k
    have hnext : 4 - (if k % 2 = 0 then 3 else 1) = if (k + 1) % 2 = 0 then 3 else 1 := by
      rcases Nat.mod_two_eq_zero_or_one k with h | h
      · rw [if_pos h, if_neg (by omega)]
      · rw [if_neg (by omega), if_pos (by omega)]
    rw [List.zipIdx_cons, List.map_cons, List.sum_cons, ← ih (k + 1), ← hnext]
    rfl

theorem weightedSum_reverse (ds : List Byte) : weightedSum 3 ds.reverse = alternateSum ds := weightedSum_zipIdx ds.reverse 0

theorem checkDigit_iff {ds : List Byte} (hne : ds ≠ []) (hdigits : ∀ d ∈ ds, 48 ≤ d.toNat ∧ d.toNat ≤ 57) :
    checkDigit ds = true ↔ CheckDigitHolds ds := by
  obtain ⟨body, c, rfl⟩ : ∃ body c, ds = body ++ [c] := ⟨_, _, (List.dropLast_append_getLast hne).symm⟩
  have hcheck : checkDigit (body ++ [c]) = (digitValue c == (10 - alternateSum body % 10) % 10) := by
    unfold checkDigit
    rw [List.reverse_append, ← weightedSum_reverse]
    rfl
  have hc := hdigits c (by simp)
  have hholds : CheckDigitHolds (body ++ [c]) ↔ (alternateSum body + (c.toNat - 48)) % 10 = 0 := by
    refine ⟨fun ⟨body', c', heq, h⟩ => ?_, fun h => ⟨body, c, rfl, h⟩⟩
    obtain ⟨hbody, hlast⟩ := List.append_inj' heq rfl
    cases hlast
    rw [hbody]
    exact h
  rw [hcheck, hholds, beq_iff_eq, digitValue]
  omega

/-! ## The fields (R164) -/

theorem readField_eq {ds : List Byte} {a n : Nat} (ha : 1 ≤ a) (hn : 1 ≤ n) :
    readField ds (a, n) = if ds.length < a + n - 1 then none else some (decimalField ds a n) := by
  have hvalue : ((ds.drop (a - 1)).take n).foldl (fun m d => 10 * m + digitValue d) 0 = decimalField ds a n := by
    rw [decimalField, List.foldl_map]
    rfl
  unfold readField
  by_cases h : ds.length < a + n - 1
  · have hpast : ¬a - 1 + n ≤ ds.length := by omega
    rw [if_neg hpast, if_pos h]
  · have hin : a - 1 + n ≤ ds.length := by omega
    rw [if_pos hin, if_neg h, hvalue]

theorem extract_weigh {e : CodeEntry} {ds : List Byte} {a n : Nat} (hact : e.action = .weigh) (hp : e.plu = some (a, n))
    (ha : 1 ≤ a) (hn : 1 ≤ n) :
    extract e ds = if ds.length < a + n - 1 ∨ decimalField ds a n = 0 then .forward else .weigh (decimalField ds a n) := by
  have hread : e.plu.bind (readField ds) = if ds.length < a + n - 1 then none else some (decimalField ds a n) := by
    rw [hp]
    exact readField_eq ha hn
  unfold extract
  rw [hact]
  dsimp only
  rw [hread]
  by_cases hlen : ds.length < a + n - 1
  · rw [if_pos hlen, if_pos (.inl hlen)]
  · rw [if_neg hlen]
    simp [hlen]

theorem extract_embedded {e : CodeEntry} {ds : List Byte} {a n b m : Nat} (hact : e.action = .embedded)
    (hp : e.plu = some (a, n)) (hprice : e.price = some (b, m)) (ha : 1 ≤ a) (hn : 1 ≤ n) (hb : 1 ≤ b) (hm : 1 ≤ m) :
    extract e ds =
      if ds.length < a + n - 1 ∨ ds.length < b + m - 1 ∨ decimalField ds a n = 0 then .forward
      else .embedded (decimalField ds a n) (decimalField ds b m) := by
  have hread : e.plu.bind (readField ds) = if ds.length < a + n - 1 then none else some (decimalField ds a n) := by
    rw [hp]
    exact readField_eq ha hn
  have hread' : e.price.bind (readField ds) = if ds.length < b + m - 1 then none else some (decimalField ds b m) := by
    rw [hprice]
    exact readField_eq hb hm
  unfold extract
  rw [hact]
  dsimp only
  rw [hread, hread']
  by_cases hlen : ds.length < a + n - 1
  · simp [hlen]
  · by_cases hlen' : ds.length < b + m - 1
    · simp [hlen, hlen']
    · simp [hlen, hlen']

theorem codeAction_none {table : List CodeEntry} {ds : List Byte} (h : matchCode table ds = none) :
    codeAction table ds = .forward := by
  rw [codeAction, h]

theorem codeAction_some {table : List CodeEntry} {ds : List Byte} {e : CodeEntry} (h : matchCode table ds = some e) :
    codeAction table ds = if e.check && !checkDigit ds then .block .check else extract e ds := by
  rw [codeAction, h]

/-! ## Reads (R162) -/

theorem readDigits_iff {payload ds : List Byte} :
    readDigits payload = some ds ↔
      ∃ b, payload = b :: ds ∧ 1 ≤ ds.length ∧ ds.length ≤ 20 ∧ ∀ d ∈ ds, 48 ≤ d.toNat ∧ d.toNat ≤ 57 := by
  cases payload with
  | nil => simp [readDigits]
  | cons b bs =>
    have hdigits : bs.all isDigit = true ↔ ∀ d ∈ bs, 48 ≤ d.toNat ∧ d.toNat ≤ 57 := by
      simp [List.all_eq_true, isDigit]
    have hcons : readDigits (b :: bs) = if 1 ≤ bs.length ∧ bs.length ≤ 20 ∧ bs.all isDigit then some bs else none := rfl
    rw [hcons]
    by_cases h : 1 ≤ bs.length ∧ bs.length ≤ 20 ∧ bs.all isDigit = true
    · obtain ⟨h1, h2, h3⟩ := h
      rw [if_pos ⟨h1, h2, h3⟩]
      constructor
      · rintro ⟨⟩
        exact ⟨b, rfl, h1, h2, hdigits.mp h3⟩
      · rintro ⟨_, ⟨⟩, _⟩
        rfl
    · rw [if_neg h]
      constructor
      · intro hn
        cases hn
      · rintro ⟨_, ⟨⟩, h1, h2, h3⟩
        exact absurd ⟨h1, h2, hdigits.mpr h3⟩ h

end Sys2Proof.Machine
end

section
/-! Proofs about the code filter: the actions of a read (R165 to R168), and O52. -/

namespace Sys2Proof.Machine

open Sys2Proof

/-! ## The way of a frame (R162 to R168) -/

theorem mem_of_standing {s : State} {n : Notice} (h : Standing s n) : n ∈ s.lli.notices := List.mem_of_find?_eq_some h

section

variable {f : AccFrame} {s : State} {ds : List Byte}

theorem routeUp_read (hr : (s.acp.units.get f.unit).role = .scanner) (hl : s.lli.lane = .ready)
    (hd : readDigits f.payload = some ds) : routeUp f s = filterRead f ds s := by
  unfold routeUp
  rw [if_pos ⟨hr, hl⟩, hd]

/-- A frame that is no read of a scanner in a READY lane goes up. -/
theorem routeUp_other (h : (s.acp.units.get f.unit).role ≠ .scanner ∨ s.lli.lane ≠ .ready ∨ readDigits f.payload = none) :
    routeUp f s = passUp f s := by
  unfold routeUp
  split
  · rename_i hr
    obtain ⟨hrole, hlane⟩ := hr
    have hd : readDigits f.payload = none := (h.resolve_left fun hn => hn hrole).resolve_left fun hn => hn hlane
    rw [hd]
  · rfl

theorem filterRead_forward (h : codeAction s.tbs.code.active ds = .forward) : filterRead f ds s = passUp f s := by
  rw [filterRead, h]

theorem filterRead_block {r : BlockReason} (h : codeAction s.tbs.code.active ds = .block r) :
    filterRead f ds s = blockRead f.unit r s := by
  rw [filterRead, h]

theorem filterRead_weigh {p : Nat} (h : codeAction s.tbs.code.active ds = .weigh p) :
    filterRead f ds s = weighRead f p s := by
  rw [filterRead, h]

theorem filterRead_embedded {p a : Nat} (h : codeAction s.tbs.code.active ds = .embedded p a) :
    filterRead f ds s = embeddedRead f p a s := by
  rw [filterRead, h]

/-! ### WEIGH (R166, R167) -/

variable {p a : Nat} {o : Sale}

theorem weighRead_unopened (h : s.openSale? = none) : weighRead f p s = passUp f s := by
  rw [weighRead, h]
  rfl

theorem weighRead_open (ho : s.openSale? = some o) :
    weighRead f p s =
      match captureRefusal p s with
      | none => raiseAccessory .scanConsumed f.unit none none (beginCapture p .scan s)
      | some .busy => { s with acp := { s.acp with held := some ⟨f, p⟩ } }
      | some _ => passUp f s := by
  unfold weighRead
  rw [ho]
  exact if_neg (by simp)

theorem weighRead_held (ho : s.openSale? = some o) (h1 : 1 ≤ p) (h2 : p ≤ 999999) (hc : s.wch.capture ≠ none) :
    weighRead f p s = { s with acp := { s.acp with held := some ⟨f, p⟩ } } := by
  rw [weighRead_open ho, captureRefusal_busy h1 h2 hc]

theorem weighRead_starts (ho : s.openSale? = some o) (h1 : 1 ≤ p) (h2 : p ≤ 999999) (hc : s.wch.capture = none)
    (hs : s.wch.state = .running) (hi : ∀ e, s.tbs.findItem p = some e → e.basis ≠ .each) :
    weighRead f p s = raiseAccessory .scanConsumed f.unit none none (beginCapture p .scan s) := by
  rw [weighRead_open ho, captureRefusal_none h1 h2 hc hs (by rw [ho]; rfl) hi]

theorem weighRead_refused (ho : s.openSale? = some o) (h : p < 1 ∨ 999999 < p ∨ (s.wch.capture = none ∧
    (s.wch.state ≠ .running ∨ ∃ e, s.tbs.findItem p = some e ∧ e.basis = .each))) : weighRead f p s = passUp f s := by
  rw [weighRead_open ho]
  by_cases hrange : p < 1 ∨ 999999 < p
  · rw [captureRefusal_range hrange]
  · have h1 : 1 ≤ p := by omega
    have h2 : p ≤ 999999 := by omega
    obtain ⟨hc, hwhy⟩ := (h.resolve_left (by omega)).resolve_left (by omega)
    by_cases hs : s.wch.state = .running
    · obtain ⟨e, he, hb⟩ := hwhy.resolve_left fun hn => hn hs
      rw [captureRefusal_each h1 h2 hc hs (by rw [ho]; simp) he hb]
    · rw [captureRefusal_state h1 h2 hc (.inl hs)]

/-! ### EMBEDDED (R168) -/

theorem offerEmbedded_open (ho : s.openSale? = some o) :
    offerEmbedded p a s =
      if 99999999 < a then (s, .limit)
      else if o.admits (embeddedLine (s.tbs.findItem p) p a) then
        (addLine o (embeddedLine (s.tbs.findItem p) p a)
          (if (embeddedLine (s.tbs.findItem p) p a).state = .referred then some .missing else none) s, .made (o.lines.length + 1))
      else (s, .limit) := by
  unfold offerEmbedded
  rw [ho]
  rfl

theorem embeddedRead_unopened (h : s.openSale? = none) : embeddedRead f p a s = passUp f s := by
  have he : offerEmbedded p a s = (s, .state) := by
    unfold offerEmbedded
    rw [h]
  unfold embeddedRead
  rw [he]

theorem embeddedRead_limit (ho : s.openSale? = some o)
    (h : 99999999 < a ∨ o.admits (embeddedLine (s.tbs.findItem p) p a) = false) : embeddedRead f p a s = passUp f s := by
  have he : offerEmbedded p a s = (s, .limit) := by
    rw [offerEmbedded_open ho]
    by_cases ha : 99999999 < a
    · exact if_pos ha
    · rw [if_neg ha, h.resolve_left ha]
      rfl
  unfold embeddedRead
  rw [he]

theorem embeddedRead_made {r : Option ReferralReason} (ho : s.openSale? = some o) (ha : a ≤ 99999999)
    (hadm : o.admits (embeddedLine (s.tbs.findItem p) p a) = true)
    (hr : (if (embeddedLine (s.tbs.findItem p) p a).state = .referred then some ReferralReason.missing else none) = r) :
    embeddedRead f p a s =
      raiseAccessory .scanConsumed f.unit none (some (o.lines.length + 1)) (addLine o (embeddedLine (s.tbs.findItem p) p a) r s) := by
  have he : offerEmbedded p a s =
      (addLine o (embeddedLine (s.tbs.findItem p) p a) r s, .made (o.lines.length + 1)) := by
    rw [offerEmbedded_open ho, if_neg (by omega), if_pos hadm, hr]
  unfold embeddedRead
  rw [he]

theorem embeddedLine_found {e : ItemEntry} (h : s.tbs.findItem p = some e) :
    embeddedLine (s.tbs.findItem p) p a = { Line.plain .embedded .posted e.text a with plu := some p } := by
  rw [h]
  rfl

theorem embeddedLine_missing (h : s.tbs.findItem p = none) :
    embeddedLine (s.tbs.findItem p) p a = { Line.plain .embedded .referred [] 0 with plu := some p } := by
  rw [h]
  rfl

/-- R168, R65: what SRU admits of an EMBEDDED line. -/
theorem embedded_not_admitted (h : 200 ≤ o.lines.length ∨ (s.tbs.findItem p = none ∧ 4 ≤ o.referrals.length) ∨
    (s.tbs.findItem p ≠ none ∧ (o.itemTotal + a < 0 ∨ 999999999 < o.itemTotal + a))) :
    o.admits (embeddedLine (s.tbs.findItem p) p a) = false := by
  rw [Bool.eq_false_iff]
  intro hadm
  cases hf : s.tbs.findItem p with
  | none =>
    rw [hf, admits_referred_iff rfl] at hadm
    obtain ⟨hlen, href⟩ := hadm
    rcases h with h | ⟨_, h⟩ | ⟨h, _⟩
    · omega
    · omega
    · exact h hf
  | some e =>
    rw [hf, admits_posted_iff rfl] at hadm
    obtain ⟨hlen, hlow, hhigh⟩ := hadm
    have hamount : (embeddedLine (some e) p a).amount = a := rfl
    rw [hamount] at hlow hhigh
    rcases h with h | ⟨h, _⟩ | ⟨_, h⟩
    · omega
    · rw [hf] at h
      cases h
    · omega

end

/-! ## The state in which a read acts -/

theorem works_lane {ps : List Part} {ks : List Nat} {s t : State} (h : Works ps ks s t) (hp : Part.link ∉ ps) :
    t.lli.lane = s.lli.lane := by
  have hlink := congrArg Lli.lane (show _ = _ from h.part (p := .link) hp)
  exact hlink

/-- An answer noted changes the accessory port alone. -/
theorem noteAnswer_rest (n : Nat) (s : State) :
    (noteAnswer n s).sru = s.sru ∧ (noteAnswer n s).tbs = s.tbs ∧ (noteAnswer n s).wch = s.wch ∧
    (noteAnswer n s).clock = s.clock ∧ (noteAnswer n s).pen = s.pen ∧ (noteAnswer n s).pbu = s.pbu ∧
    (noteAnswer n s).lli.lane = s.lli.lane ∧ (noteAnswer n s).lli.params = s.lli.params := by
  have h := noteAnswer_works n s
  exact ⟨h.part (p := .sale) (by decide), h.part (p := .tables) (by decide), h.part (p := .weighing) (by decide),
    h.part (p := .clock) (by decide), h.part (p := .printer) (by decide), h.part (p := .budget) (by decide),
    works_lane h (by decide), works_params h (by decide)⟩

theorem noteAnswer_presence {n : Nat} (hn : n ∈ unitNumbers) (s : State) :
    ((noteAnswer n s).acp.units.get n).presence = .present := by
  rw [(noteAnswer_acp n s).1, get_set_unit _ _ hn hn, if_pos rfl]

theorem openSale_of_sru {s t : State} (h : t.sru = s.sru) : t.openSale? = s.openSale? := by
  unfold State.openSale?
  rw [h]

/-- An answer with a payload, once its frame has gone its way: the round goes on. -/
theorem answer_does {s : State} {v : DownFrame} {tag : Byte} {payload : List Byte} {ps : List Part} {ks : List Nat}
    {P : State → Prop} (hv : s.acp.visit = some v) (h4 : v.unit ≤ 4) (hlen : payload.length ≤ 250) (hne : payload ≠ [])
    (x : State) (hx : routeUp ⟨v.unit, tag, payload⟩ (noteAnswer v.unit s) = x) (hps : Part.accessory ∈ ps) (hks : 14 ∈ ks)
    (hw : Works ps ks (noteAnswer v.unit s) x) (hd : s.wch.detail = x.wch.detail ∨ 2 ∈ ks)
    (hP : P (finish s (visitAfter v.unit x))) :
    Does (.accessoryAnswer (frameBytes v.unit 5 tag payload)) s ps ks P := by
  have he : answerArrives (frameBytes v.unit 5 tag payload) s = visitAfter v.unit x := by
    rw [answerArrives_takes hv h4 hlen, ← hx, takeAnswer]
    cases payload with
    | nil => exact absurd rfl hne
    | cons b bs => rfl
  have hwch : (visitAfter v.unit x).wch = x.wch := (visitAfter_works _ x).part (p := .weighing) (by decide)
  refine does_of (f := answerArrives (frameBytes v.unit 5 tag payload)) rfl ?_ ?_ ?_ <;> rw [he]
  · exact ((noteAnswer_works v.unit s).mono (by simpa using hps) (by simpa using hks)).trans
      (hw.trans ((visitAfter_works _ _).mono (by simpa using hps) (by simp)))
  · rw [hwch]
    exact hd
  · exact hP

theorem answer_passes {s : State} {v : DownFrame} {tag : Byte} {payload : List Byte} (hv : s.acp.visit = some v)
    (h4 : v.unit ≤ 4) (hlen : payload.length ≤ 250) (hne : payload ≠ [])
    (h : routeUp ⟨v.unit, tag, payload⟩ (noteAnswer v.unit s) = passUp ⟨v.unit, tag, payload⟩ (noteAnswer v.unit s)) :
    Does (.accessoryAnswer (frameBytes v.unit 5 tag payload)) s [.accFrames, .accessory] [14] fun t =>
      t.lli.upFrames = s.lli.upFrames ++ [⟨v.unit, tag, payload⟩] := by
  obtain ⟨_, _, hwch, _⟩ := noteAnswer_rest v.unit s
  refine answer_does hv h4 hlen hne _ h (by simp) (by simp) ((passUp_works _ _).mono (by simp) (by simp))
    (.inl (congrArg Wch.detail hwch.symm)) ?_
  rw [finish_upFrames, upFrames_of_works (visitAfter_works _ _) (by decide), passUp_upFrames,
    upFrames_of_works (noteAnswer_works v.unit s) (by decide)]

theorem visitAfter_lli (n : Nat) (s : State) : (visitAfter n s).lli = s.lli := (visitFrom_rest _ s).2.2.2

theorem visitAfter_notified {s x : State} {n : Nat} {m : Notice} (h : Standing x m) (hk : m.kind ≠ 2) :
    Notified (finish s (visitAfter n x)) m :=
  (h.of_notices (congrArg Lli.notices (visitAfter_lli n x))).finish s hk

end Sys2Proof.Machine
end

section
/-! Proofs about the code filter: O52. -/

namespace Sys2Proof.Machine

open Sys2Proof

/-! ## The lines that a read posts (R168) -/

section

variable {o : Sale} {s : State} {p a : Nat}

theorem embeddedPosted_unprinted {e : ItemEntry} (h : s.tbs.findItem p = some e) :
    (addLine o (embeddedLine (s.tbs.findItem p) p a) none s).sru.unprinted =
      ({ s.sru with openSlot := some { o with lines := o.lines ++
        [{ number := o.lines.length + 1, kind := .embedded, state := .posted, plu := some p, text := e.text,
           quantity := none, mass := none, unitPrice := none, basis := none, amount := a, voided := none,
           card := none, print := .notQueued }] } } : Sru).unprinted := by
  rw [addLine_unprinted, embeddedLine_found h]
  rfl

theorem embeddedReferred_unprinted (h : s.tbs.findItem p = none) :
    (addLine o (embeddedLine (s.tbs.findItem p) p a) (some .missing) s).sru.unprinted =
      ({ s.sru with openSlot := some { o with
        lines := o.lines ++ [{ number := o.lines.length + 1, kind := .embedded, state := .referred, plu := some p, text := []
                               quantity := none, mass := none, unitPrice := none, basis := none, amount := 0
                               voided := none, card := none, print := .notQueued }]
        referrals := o.referrals ++
          [⟨o.lines.length + 1, .missing, s.clock + s.lli.params.referralTimeout * 1000000⟩] } } : Sru).unprinted := by
  rw [addLine_unprinted, embeddedLine_missing h, Sale.withLine, addReferral_append]
  rfl

theorem admits_found {e : ItemEntry} (h : s.tbs.findItem p = some e) (hlen : o.lines.length < 200)
    (hlow : 0 ≤ o.itemTotal + a) (hhigh : o.itemTotal + a ≤ 999999999) :
    o.admits (embeddedLine (s.tbs.findItem p) p a) = true := by
  rw [embeddedLine_found h]
  exact (admits_posted_iff rfl).mpr ⟨hlen, hlow, hhigh⟩

theorem admits_missing (h : s.tbs.findItem p = none) (hlen : o.lines.length < 200) (href : o.referrals.length < 4) :
    o.admits (embeddedLine (s.tbs.findItem p) p a) = true := by
  rw [embeddedLine_missing h]
  exact (admits_referred_iff rfl).mpr ⟨hlen, href⟩

theorem addLine_acp (l : Line) (r : Option ReferralReason) (s : State) : (addLine o l r s).acp = s.acp := by
  refine (addLine_works o l r s).part (p := .accessory) fun hm => ?_
  have hsub := printParts_sub s
  rcases List.mem_cons.mp hm with hm | hm
  · cases hm
  · simpa using hsub _ hm

theorem addLine_accUps (l : Line) (r : Option ReferralReason) (s : State) : (addLine o l r s).lli.accUps = s.lli.accUps := by
  refine (addLine_works o l r s).part (p := .accFrames) fun hm => ?_
  have hsub := printParts_sub s
  rcases List.mem_cons.mp hm with hm | hm
  · cases hm
  · simpa using hsub _ hm

theorem beginCapture_capture (q : Nat) (c : CaptureSource) (s : State) :
    (beginCapture q c s).wch.capture =
      some ⟨q, c, s.tbs.findItem q, s.tbs.item.generation, s.clock + s.lli.params.captureTimeout * 1000⟩ := rfl

end

/-! ## The route of a read, as a function of the state (R163 to R168) -/

theorem reads_route {f : AccFrame} {s : State} {ds : List Byte} (hr : (s.acp.units.get f.unit).role = .scanner)
    (hl : s.lli.lane = .ready) (hd : readDigits f.payload = some ds) :
    (codeAction s.tbs.code.active ds = .forward → routeUp f s = passUp f s) ∧
    (∀ r, codeAction s.tbs.code.active ds = .block r → routeUp f s = blockRead f.unit r s) ∧
    (∀ p, codeAction s.tbs.code.active ds = .weigh p → routeUp f s = weighRead f p s) ∧
    ∀ p a, codeAction s.tbs.code.active ds = .embedded p a → routeUp f s = embeddedRead f p a s := by
  rw [routeUp_read hr hl hd]
  exact ⟨filterRead_forward, fun _ h => filterRead_block h, fun _ h => filterRead_weigh h, fun _ _ h => filterRead_embedded h⟩

theorem blockRead_works (n : Nat) (r : BlockReason) (s : State) : Works [.accessory] [14] s (blockRead n r s) :=
  ((withAcp_works _ s).mono (by simp) (by simp)).trans ((raiseAccessory_works _ _ _ _ _).mono (by simp) (by simp))

theorem blockRead_standing (n : Nat) (r : BlockReason) (s : State) :
    Standing (blockRead n r s)
      (.accessory .block n (s.acp.units.get n).presence (some r) none (min 65535 (s.acp.blocked + 1))) :=
  standing_raise _ _

/-- Settles O52: the routes of a read, the code table, a read at ACCESSORY_ANSWER, and every other answer. -/
theorem scannerReadsActByTheCodeTable : Obligations.ScannerReadsActByTheCodeTable := by
  unfold Obligations.ScannerReadsActByTheCodeTable
  refine ⟨fun f s ds hr hl hd => ?_, fun table ds hne hdigits => ⟨fun h => codeAction_none (matchCode_none h), fun e he => ?_⟩,
    fun s v tag symbology ds hv h1 h4 hrole hlane hmin hmax hdigits => ?_, fun s v tag payload hv h1 h4 hrole hlen => ?_⟩
  · obtain ⟨hforward, hblock, hweigh, hembedded⟩ := reads_route hr hl hd
    intro up
    refine ⟨hforward, fun r h => ?_, fun p h => ⟨fun ho => ?_, fun o ho hp1 hp2 hc => ?_, fun o ho hp1 hp2 hc hs hi => ?_⟩,
      fun p a h => ⟨fun ho => ?_, fun o e ho he ha hlen hlow hhigh => ?_⟩⟩
    · rw [hblock r h]
      exact ⟨rfl, rfl, mem_of_standing (blockRead_standing f.unit r s)⟩
    · rw [hweigh p h, weighRead_unopened ho]
      rfl
    · rw [hweigh p h, weighRead_held ho hp1 hp2 hc]
    · rw [hweigh p h, weighRead_starts ho hp1 hp2 hc hs hi]
      exact ⟨rfl, rfl⟩
    · rw [hembedded p a h, embeddedRead_unopened ho]
      rfl
    · rw [hembedded p a h, embeddedRead_made (r := none) ho ha (admits_found he hlen hlow hhigh)
        (by rw [embeddedLine_found he]; rfl)]
      exact ⟨embeddedPosted_unprinted he, addLine_accUps _ _ s⟩
  · rw [codeAction_some (matchCode_chosen he)]
    have hcheck := checkDigit_iff hne hdigits
    refine ⟨fun hc hno => ?_, fun hok => ?_⟩
    · have hbad : checkDigit ds = false := Bool.eq_false_iff.mpr fun h => hno (hcheck.mp h)
      rw [hc, hbad]
      rfl
    · have hgood : ¬(e.check && !checkDigit ds) = true := by
        rcases hok with hc | hholds
        · simp [hc]
        · simp [hcheck.mpr hholds]
      rw [if_neg hgood]
      refine ⟨fun hact => ?_, fun hact => ?_, fun a n hp ha hn => ⟨fun hact => ?_, fun b m hact hprice hb hm => ?_⟩⟩
      · rw [extract, hact]
      · rw [extract, hact]
      · exact extract_weigh hact hp ha hn
      · exact extract_embedded hact hp hprice ha hn hb hm
  · intro arrives read action
    have hn := unit_mem h1 h4
    have hlen : (symbology :: ds).length ≤ 250 := by
      rw [List.length_cons]
      omega
    let noted := noteAnswer v.unit s
    obtain ⟨hsru, htbs, hwch, hclock, hpen, hpbu, hlaneKept, hparams⟩ := noteAnswer_rest v.unit s
    obtain ⟨_, _, _, hblocked⟩ := noteAnswer_acp v.unit s
    have hopen : noted.openSale? = s.openSale? := openSale_of_sru hsru
    have hfind (p : Nat) : noted.tbs.findItem p = s.tbs.findItem p := by rw [htbs]
    have hpresent : (noted.acp.units.get v.unit).presence = .present := noteAnswer_presence hn s
    obtain ⟨hforward, hblock, hweigh, hembedded⟩ := reads_route (f := read) (s := noted) (ds := ds)
      ((noteAnswer_role hn s).trans hrole) (hlaneKept.trans hlane) (readDigits_iff.mpr ⟨symbology, rfl, hmin, hmax, hdigits⟩)
    rw [show noted.tbs = s.tbs from htbs] at hforward hblock hweigh hembedded
    have hprints : noted.printParts = s.printParts := printParts_eq hpen hpbu htbs
    have hprintKinds : noted.printKinds = s.printKinds := printKinds_eq hpen
    have hconsumed {x : State} {line : Option Nat} (hx : x.acp = noted.acp) :
        Standing (raiseAccessory .scanConsumed v.unit none line x)
          (.accessory .scanConsumed v.unit .present none line s.acp.blocked) := by
      have h := standing_raise (.accessory .scanConsumed v.unit (x.acp.units.get v.unit).presence none line x.acp.blocked) x
      rw [hx, hpresent, hblocked] at h
      rw [raiseAccessory, hx, hpresent, hblocked]
      exact h
    refine ⟨fun hup => answer_passes hv h4 hlen (by simp) ?_, fun r h => ?_, fun p o h ho hp1 hp2 => ⟨fun hc => ?_,
      fun hc hs hi => ?_⟩, fun p a o e h ho he ha hl hlow hhigh => ?_, fun p a o h ho he ha hl href => ?_⟩
    · rcases hup with h | ⟨ho, ⟨p, h⟩ | ⟨p, a, h⟩⟩ | ⟨p, h, hwhy⟩ | ⟨p, a, o, h, ho, hwhy⟩
      · exact hforward h
      · exact (hweigh p h).trans (weighRead_unopened (hopen.trans ho))
      · exact (hembedded p a h).trans (embeddedRead_unopened (hopen.trans ho))
      · cases ho : s.openSale? with
        | none => exact (hweigh p h).trans (weighRead_unopened (hopen.trans ho))
        | some o =>
          refine (hweigh p h).trans (weighRead_refused (hopen.trans ho) ?_)
          rw [hfind, show noted.wch = s.wch from hwch]
          exact hwhy
      · refine (hembedded p a h).trans (embeddedRead_limit (hopen.trans ho) ?_)
        rcases hwhy with hwhy | hwhy
        · exact .inl hwhy
        · refine .inr (embedded_not_admitted ?_)
          rw [hfind]
          exact hwhy
    · refine answer_does hv h4 hlen (by simp) _ (hblock r h) (by simp) (by simp) (blockRead_works v.unit r noted)
        (.inl (congrArg Wch.detail hwch.symm)) ?_
      have hstands := blockRead_standing v.unit r noted
      rw [hpresent, show noted.acp.blocked = s.acp.blocked from hblocked] at hstands
      exact visitAfter_notified hstands (by simp [Notice.kind])
    · have hheld := (hweigh p h).trans
        (weighRead_held (hopen.trans ho) hp1 hp2 (by rw [show noted.wch = s.wch from hwch]; exact hc))
      refine answer_does hv h4 hlen (by simp) _ hheld (by simp) (by simp) ((withAcp_works _ noted).mono (by simp) (by simp))
        (.inl (congrArg Wch.detail hwch.symm)) ?_
      rw [finish_acp_held, visitAfter, (visitFrom_rest _ _).2.1]
    · have hstarts := (hweigh p h).trans
        (weighRead_starts (hopen.trans ho) hp1 hp2 (by rw [show noted.wch = s.wch from hwch]; exact hc)
          (by rw [show noted.wch = s.wch from hwch]; exact hs) (by rw [hfind]; exact hi))
      refine answer_does hv h4 hlen (by simp) _ hstarts (by simp) (by simp)
        (((beginCapture_works p .scan noted).mono (by simp) (by simp)).trans
          ((raiseAccessory_works _ _ _ _ _).mono (by simp) (by simp))) (.inr (by simp)) ?_
      refine ⟨?_, visitAfter_notified (hconsumed rfl) (by simp [Notice.kind])⟩
      have hkept : (visitAfter v.unit (raiseAccessory .scanConsumed v.unit none none (beginCapture p .scan noted))).wch =
          (beginCapture p .scan noted).wch := (visitAfter_works _ _).part (p := .weighing) (by decide)
      rw [finish_wch, hkept, beginCapture_capture, htbs, hclock, hparams]
    · let x := addLine o (embeddedLine (noted.tbs.findItem p) p a) none noted
      have he' : noted.tbs.findItem p = some e := (hfind p).trans he
      have hmade := (hembedded p a h).trans (embeddedRead_made (r := none) (hopen.trans ho) ha (admits_found he' hl hlow hhigh)
        (by rw [embeddedLine_found he']; rfl))
      have hadded : Works ([.accessory, .sale] ++ noted.printParts) ([14] ++ noted.printKinds) noted
          (raiseAccessory .scanConsumed v.unit none (some (o.lines.length + 1)) x) :=
        ((addLine_posted_works o _ noted).mono (by simp +contextual) (by simp +contextual)).trans
          ((raiseAccessory_works _ _ _ _ _).mono (by simp) (by simp))
      have hdetail := detail_or_weight hadded (by decide)
      rw [hprints, hprintKinds] at hadded
      rw [hprintKinds, show noted.wch = s.wch from hwch] at hdetail
      refine answer_does hv h4 hlen (by simp) _ hmade (by simp) (by simp) hadded hdetail ?_
      refine ⟨?_, visitAfter_notified (hconsumed (addLine_acp _ _ noted)) (by simp [Notice.kind])⟩
      have hkept : (visitAfter v.unit (raiseAccessory .scanConsumed v.unit none (some (o.lines.length + 1)) x)).sru = x.sru :=
        (visitAfter_works _ _).part (p := .sale) (by decide)
      rw [finish_sru, hkept, embeddedPosted_unprinted he', hsru]
    · let x := addLine o (embeddedLine (noted.tbs.findItem p) p a) (some .missing) noted
      have he' : noted.tbs.findItem p = none := (hfind p).trans he
      have hmade := (hembedded p a h).trans (embeddedRead_made (r := some .missing) (hopen.trans ho) ha
        (admits_missing he' hl href) (by rw [embeddedLine_missing he']; rfl))
      have hadded : Works ([.accessory, .sale] ++ noted.printParts) ([7, 14] ++ noted.printKinds) noted
          (raiseAccessory .scanConsumed v.unit none (some (o.lines.length + 1)) x) :=
        ((addLine_works o _ _ noted).mono (by simp +contextual) (by simp +contextual)).trans
          ((raiseAccessory_works _ _ _ _ _).mono (by simp) (by simp))
      have hdetail := detail_or_weight hadded (by decide)
      rw [hprints, hprintKinds] at hadded
      rw [hprintKinds, show noted.wch = s.wch from hwch] at hdetail
      refine answer_does hv h4 hlen (by simp) _ hmade (by simp) (by simp) hadded hdetail ?_
      intro number
      have hreferral : Standing (raiseAccessory .scanConsumed v.unit none (some (o.lines.length + 1)) x)
          (.referral (o.outstanding ++ [number])) :=
        (addLine_referral o _ .missing noted).raised _ (by simp [Notice.kind])
      refine ⟨?_, visitAfter_notified hreferral (by simp [Notice.kind]),
        visitAfter_notified (hconsumed (addLine_acp _ _ noted)) (by simp [Notice.kind])⟩
      have hkept : (visitAfter v.unit (raiseAccessory .scanConsumed v.unit none (some (o.lines.length + 1)) x)).sru = x.sru :=
        (visitAfter_works _ _).part (p := .sale) (by decide)
      rw [finish_sru, hkept, embeddedReferred_unprinted he', hsru, hclock, hparams]
  · intro arrives
    have hn := unit_mem h1 h4
    refine ⟨fun hempty => ?_, fun hne hother => answer_passes hv h4 hlen hne (routeUp_other ?_)⟩
    · have he : answerArrives (frameBytes v.unit 5 tag payload) s = visitAfter v.unit (noteAnswer v.unit s) := by
        rw [answerArrives_takes hv h4 hlen, hempty]
        rfl
      have hworks : Works [.accessory] [14] s (answerArrives (frameBytes v.unit 5 tag payload) s) := by
        rw [he]
        exact (noteAnswer_works v.unit s).trans ((visitAfter_works _ _).mono (by simp) (by simp))
      exact does_of (f := answerArrives (frameBytes v.unit 5 tag payload)) rfl hworks
        (.inl (detail_of_works hworks (by decide))) trivial
    · obtain ⟨_, _, _, _, _, _, hlaneKept, _⟩ := noteAnswer_rest v.unit s
      rcases hother with h | h | h
      · exact .inl (by rw [noteAnswer_role hn]; exact h)
      · exact .inr (.inl (by rw [hlaneKept, h]; decide))
      · refine .inr (.inr ?_)
        cases hd : readDigits payload with
        | none => rfl
        | some ds =>
          obtain ⟨b, rfl, hmin, hmax, hdigits⟩ := readDigits_iff.mp hd
          exact absurd ⟨by simp; omega, by simp; omega, hdigits⟩ h

end Sys2Proof.Machine
end

section
/-! Proofs about loaded tables: O54, TABLE_END, and O56, TABLE_READ (R179, R182, R184). -/

namespace Sys2Proof.Machine

open Sys2Proof

/-! ## TABLE_END (R179, R182) -/

theorem insertBy_perm {α : Type} (key : α → Nat) (a : α) (l : List α) : (insertBy key a l).Perm (a :: l) := by
  induction l with
  | nil => exact List.Perm.refl _
  | cons b bs ih =>
    unfold insertBy
    split
    · exact List.Perm.refl _
    · exact (List.Perm.cons b ih).trans (List.Perm.swap a b bs)

theorem sortBy_perm {α : Type} (key : α → Nat) (l : List α) : (sortBy key l).Perm l := by
  induction l with
  | nil => exact List.Perm.refl _
  | cons a l ih => exact (insertBy_perm key a _).trans (List.Perm.cons a ih)

theorem insertBy_sorted {α : Type} {key : α → Nat} {a : α} {l : List α} (h : l.Pairwise fun x y => key x ≤ key y) :
    (insertBy key a l).Pairwise fun x y => key x ≤ key y := by
  induction l with
  | nil => exact List.pairwise_singleton _ _
  | cons b bs ih =>
    obtain ⟨hb, hbs⟩ := List.pairwise_cons.mp h
    unfold insertBy
    split
    · rename_i hab
      refine List.pairwise_cons.mpr ⟨fun x hx => ?_, h⟩
      rcases List.mem_cons.mp hx with rfl | hx
      · exact hab
      · exact hab.trans (hb x hx)
    · rename_i hba
      refine List.pairwise_cons.mpr ⟨fun x hx => ?_, ih hbs⟩
      rcases List.mem_cons.mp ((insertBy_perm key a bs).mem_iff.mp hx) with rfl | hx
      · exact Nat.le_of_not_le hba
      · exact hb x hx

theorem sortBy_sorted {α : Type} (key : α → Nat) (l : List α) : (sortBy key l).Pairwise fun x y => key x ≤ key y := by
  induction l with
  | nil => exact List.Pairwise.nil
  | cons a l ih => exact insertBy_sorted ih

/-- The session's bank PENDING, the session closed. -/
def State.pended (s : State) (n : TableName) : State := closeSession { s with tbs := s.tbs.edit n fun _ b => b.pend }

theorem pendTable_eq (n : TableName) (s : State) : pendTable n s = trySwap n (s.pended n) := rfl

theorem pended_swapReady (s : State) (n m : TableName) : (s.pended n).swapReady m = s.swapReady m := by
  cases m <;> rfl

theorem pended_loadState (s : State) (n : TableName) : (s.pended n).tbs.loadState n = .pending := by
  cases n <;> rfl

theorem pended_sameActive (s : State) (n : TableName) : s.sameActive (s.pended n) := by
  cases n <;> exact ⟨rfl, rfl, rfl, rfl, rfl, fun m => by cases m <;> rfl⟩

theorem pended_works (s : State) (n : TableName) : Works [.tables] [] s (s.pended n) :=
  (withTables_works _ s).trans (withTables_works _ _)

theorem pendTable_ready {s : State} {n : TableName} (h : s.swapReady n = true) :
    pendTable n s = raise (.table n (((s.pended n).tbs.swap n).generation n) .swapped)
      { s.pended n with tbs := (s.pended n).tbs.swap n } := by
  rw [pendTable_eq, trySwap, pended_loadState, pended_swapReady, h]
  rfl

theorem pendTable_waits {s : State} {n : TableName} (h : s.swapReady n = false) : pendTable n s = s.pended n := by
  rw [pendTable_eq, trySwap, pended_loadState, pended_swapReady, h]
  rfl

/-- What the swap of a PENDING bank makes of the table. -/
theorem swap_table (t : Tbs) (n : TableName) :
    (t.swap n).loadState n = .empty ∧ (t.swap n).generation n = nextGeneration (t.generation n) ∧
    ((t.swap n).look n fun _ b => b.active.length) = (t.look n fun _ b => b.load.length) ∧
    (t.swap n).session = t.session := by
  have hlen {α : Type} (key : α → Nat) (l : List α) : (sortBy key l).length = l.length := (sortBy_perm key l).length_eq
  cases n with
  | code => exact ⟨rfl, rfl, rfl, rfl⟩
  | _ => exact ⟨rfl, rfl, hlen _ _, rfl⟩

theorem tableEnd_closes {s : State} {x : Session} {count : Nat} (hs : s.tbs.session = some x) (hc : count ≤ 1024)
    (hx : count = x.count) :
    tableEnd count s =
      okay [.flag (s.swapReady x.table), .int 2 ((pendTable x.table s).tbs.generation x.table)] (pendTable x.table s) := by
  unfold tableEnd
  rw [hs]
  exact (if_neg (by omega)).trans (if_neg (fun hne => hne hx))

theorem tableEnd_miscounts {s : State} {x : Session} {count : Nat} (hs : s.tbs.session = some x) (hc : count ≤ 1024)
    (hx : count ≠ x.count) : tableEnd count s = (abortSession x .count s, ⟨.refused .count, []⟩) := by
  unfold tableEnd
  rw [hs]
  exact (if_neg (by omega)).trans (if_pos hx)

theorem AtRouter.swapReady {i : Instr} {s u : State} (h : AtRouter i s u) (n : TableName) :
    u.swapReady n = s.swapReady n := by
  obtain ⟨q, rfl⟩ := h.eq
  cases n <;> rfl

theorem abortSession_givenUp (x : Session) (r : TableResult) (s : State) : GivenUp x.table r s (abortSession x r s) :=
  (giveUpLoad_givenUp x.table r s).closeSession

/-- Settles O54: the swap at once, the wait, and another count. -/
theorem tableEndSwapsOrWaits : Obligations.TableEndSwapsOrWaits := by
  unfold Obligations.TableEndSwapsOrWaits
  refine fun tag count s x hs hc => ⟨fun hx hready => ?_, fun hx hready => ?_, fun hx => ?_⟩
  · refine serves_of (h := tableEnd count) rfl fun u hu => ?_
    have hready' : u.swapReady x.table = true := (hu.swapReady _).trans hready
    have hpend := pendTable_ready hready'
    obtain ⟨hload, hgen, hactive, hsession⟩ := swap_table (u.pended x.table).tbs x.table
    have hnext : (pendTable x.table u).tbs.generation x.table =
        if u.tbs.generation x.table = 65535 then 1 else u.tbs.generation x.table + 1 := by
      rw [hpend]
      refine hgen.trans ?_
      obtain ⟨_, _, _, _, _, hkept⟩ := pended_sameActive u x.table
      rw [hkept]
      rfl
    have hworks : Works [.tables] [13] u (pendTable x.table u) := by
      rw [hpend]
      exact Works.raised (((pended_works u _).mono (by simp) (by simp)).trans ((withTables_works _ _).mono (by simp) (by simp)))
        (by simp [Notice.kind])
    rw [tableEnd_closes (by rw [hu.tbs]; exact hs) hc hx, hready', hnext]
    refine ⟨rfl, hworks, .inl (detail_of_works hworks (by decide)), ?_⟩
    rw [finish_tbs, respond_tbs]
    show (pendTable x.table u).tbs.session = none ∧ (pendTable x.table u).tbs.loadState x.table = .empty ∧
      (pendTable x.table u).tbs.generation x.table = _ ∧
      ((pendTable x.table u).tbs.look x.table fun _ b => b.active.length) = _ ∧ _
    rw [hnext]
    have hload' : (pendTable x.table u).tbs.loadState x.table = .empty := by rw [hpend]; exact hload
    have hsession' : (pendTable x.table u).tbs.session = none := by rw [hpend]; exact hsession
    have hactive' : ((pendTable x.table u).tbs.look x.table fun _ b => b.active.length) =
        u.tbs.look x.table fun _ b => b.load.length := by
      rw [hpend]
      refine hactive.trans ?_
      cases x.table <;> rfl
    refine ⟨hsession', hload', rfl, hactive', fun hcode => ?_, fun hitem => ?_, ?_⟩
    · show (pendTable x.table u).tbs.code.active = _
      rw [hpend, hcode]
      rfl
    · show (pendTable x.table u).tbs.item.active.Pairwise _ ∧ ∀ e, e ∈ (pendTable x.table u).tbs.item.active ↔ _
      rw [hpend, hitem]
      exact ⟨sortBy_sorted ItemEntry.plu u.tbs.item.load, fun e => (sortBy_perm ItemEntry.plu u.tbs.item.load).mem_iff⟩
    · have hstands : Standing (pendTable x.table u) (.table x.table ((pendTable x.table u).tbs.generation x.table) .swapped) := by
        rw [hpend]
        exact standing_raise _ _
      exact notified_respond hstands (by simp [Notice.kind])
  · refine serves_of (h := tableEnd count) rfl fun u hu => ?_
    have hready' : u.swapReady x.table = false := (hu.swapReady _).trans hready
    have hpend := pendTable_waits hready'
    obtain ⟨_, _, _, _, _, hkept⟩ := pended_sameActive u x.table
    rw [tableEnd_closes (by rw [hu.tbs]; exact hs) hc hx, hready', hpend, hkept]
    have hworks := pended_works u x.table
    refine ⟨rfl, hworks, .inl (detail_of_works hworks (by decide)), ?_⟩
    have htbs : (finish s (respond ⟨tag, .ok, [.flag false, .int 2 (u.tbs.generation x.table : Nat)], false⟩
        (okay [.flag false, .int 2 (u.tbs.generation x.table : Nat)] (u.pended x.table)).1)).tbs = (u.pended x.table).tbs := by
      rw [finish_tbs, respond_tbs]
      rfl
    rw [htbs]
    exact ⟨rfl, pended_loadState u _, State.sameActive_of_tbs (pended_sameActive u x.table) htbs⟩
  · have h := serves_of_givenUp (v := .refused .count) (n := x.table) (r := .count) (session := fun _ => none)
      (h := tableEnd count) (i := .tableEnd tag count) (tag := tag) (s := s) rfl fun u hu => by
        rw [tableEnd_miscounts (by rw [hu.tbs]; exact hs) hc hx]
        exact ⟨rfl, abortSession_givenUp x .count u, rfl⟩
    intro u hu
    obtain ⟨t, ht, hanswer, hchanges, hload, _, hsession, hsame, hnote⟩ := h u hu
    exact ⟨t, ht, hanswer, hchanges, hsession, hload, hsame, hnote⟩

/-! ## TABLE_READ (R184) -/

theorem entryAt_none {α : Type} {l : List α} {f : α → List Field} {index : Nat} (h : index = 0 ∨ l.length < index) :
    entryAt l f index = none := by
  unfold entryAt
  rcases h with h | h
  · exact if_pos h
  · by_cases h0 : index = 0
    · exact if_pos h0
    · rw [if_neg h0, List.getElem?_eq_none (by omega)]
      rfl

theorem entryAt_some {α : Type} {l : List α} {f : α → List Field} {k : Nat} {e : α} (h : l[k]? = some e) :
    entryAt l f (k + 1) = some (f e) := by
  unfold entryAt
  rw [if_neg (by omega), Nat.add_sub_cancel, h]
  rfl

theorem tableRead_gives {name : List Byte} {index : Nat} {s : State} {n : TableName} {fs : List Field}
    (hn : tableNamed name = some n) (h : s.tbs.entryFields n index = some fs) :
    tableRead name index s = okay (fs ++ [.int 2 (s.tbs.generation n)]) s := by
  unfold tableRead
  rw [hn]
  dsimp only
  rw [h]

/-- TABLE_READ of an entry that stands: its fields and the generation, and nothing changes. -/
theorem tableRead_serves {tag : Byte} {name : List Byte} {index : Nat} {s : State} {n : TableName} {fs : List Field}
    {gs : State → List Field} (hn : tableNamed name = some n) (h : s.tbs.entryFields n index = some fs)
    (hg : ∀ u, u.tbs = s.tbs → gs u = fs ++ [.int 2 (s.tbs.generation n)]) :
    Serves (.tableRead tag name index) tag s .ok gs [] [] fun _ _ => True := by
  refine serves_of (h := tableRead name index) rfl fun u hu => ?_
  have hentry : u.tbs.entryFields n index = some fs := by
    rw [hu.tbs]
    exact h
  rw [tableRead_gives hn hentry, hg u hu.tbs, hu.tbs]
  exact ⟨rfl, Works.refl _ _ u, .inl rfl, trivial⟩

/-- Settles O56: the unknown name, no entry at the index, and the entry of each table. -/
theorem tableReadReturnsTheActiveEntry : Obligations.TableReadReturnsTheActiveEntry := by
  unfold Obligations.TableReadReturnsTheActiveEntry
  refine fun tag name index s => ⟨fun hn => ?_, fun n hn hno => ?_, fun k hk => ?_⟩
  · refine refuses_of (h := tableRead name index) rfl fun u _ => ?_
    unfold tableRead
    rw [hn]
  · refine refuses_of (h := tableRead name index) rfl fun u hu => ?_
    have hnone : u.tbs.entryFields n index = none := by
      rw [hu.tbs]
      cases n <;> exact entryAt_none hno
    unfold tableRead
    rw [hn]
    dsimp only
    rw [hnone]
  · subst hk
    refine ⟨fun e hn he => ?_, fun e hn he => ?_, fun e hn he => ?_, fun e hn he => ?_, fun e hn he => ?_⟩
    · refine tableRead_serves (n := .item) (fs := e.fields) hn (entryAt_some he) fun u hu => ?_
      rw [hu, ItemEntry.fields]
      simp [Tbs.generation, Tbs.look]
    · refine tableRead_serves (n := .code) (fs := e.fields) hn (entryAt_some he) fun u hu => ?_
      rw [hu, CodeEntry.fields]
      rfl
    · refine tableRead_serves (n := .font) (fs := e.fields) hn (entryAt_some he) fun u hu => ?_
      rw [hu, GlyphEntry.fields]
      rfl
    · refine tableRead_serves (n := .cardFormat) (fs := e.fields) hn (entryAt_some he) fun u hu => ?_
      rw [hu, FormatEntry.fields]
      rfl
    · refine tableRead_serves (n := .headerTrailer) (fs := e.fields) hn (entryAt_some he) fun u hu => ?_
      rw [hu, HeaderEntry.fields]
      rfl

end Sys2Proof.Machine
end

section
/-! Proofs about loaded tables: the readers of an entry take back its bytes, and O60, the checks of a table record (R174 to
R176, R178). -/

namespace Sys2Proof.Machine

open Sys2Proof

/-! ## Readers take back what was written (R190) -/

/-- A reader takes `bs` from the front of the bytes and finds `a` in it. -/
def Reads {α : Type} (p : Reader α) (bs : List Byte) (a : α) : Prop := ∀ rest, p (bs ++ rest) = some (a, rest)

theorem Reads.pure {α : Type} (a : α) : Reads (Reader.pure a) [] a := fun _ => rfl

theorem Reads.andThen {α β : Type} {p : Reader α} {f : α → Reader β} {bs cs : List Byte} {a : α} {b : β}
    (hp : Reads p bs a) (hf : Reads (f a) cs b) : Reads (p.andThen f) (bs ++ cs) b := fun rest => by
  rw [List.append_assoc, Reader.andThen, hp]
  exact hf rest

theorem Reads.readAll {α : Type} {p : Reader α} {bs : List Byte} {a : α} (h : Reads p bs a) : readAll p bs = some a := by
  have hbs := h []
  rw [List.append_nil] at hbs
  rw [Machine.readAll, hbs]

theorem natBytes_length (n v : Nat) : (natBytes n v).length = n := by
  induction n with
  | zero => rfl
  | succ n ih => rw [natBytes, List.length_cons, ih]

theorem foldl_natBytes (n v acc : Nat) :
    (natBytes n v).foldl (fun a b => a * 256 + b.toNat) acc = acc * 256 ^ n + v % 256 ^ n := by
  induction n generalizing acc with
  | zero => simp [natBytes, Nat.mod_one]
  | succ n ih =>
    have hsplit : v % 256 ^ (n + 1) = v % 256 ^ n + 256 ^ n * (v / 256 ^ n % 256) := by rw [pow_succ, Nat.mod_mul]
    rw [natBytes, List.foldl_cons, ih, BitVec.toNat_ofNat, hsplit]
    ring

theorem bytesNat_natBytes {n v : Nat} (h : v < 256 ^ n) : bytesNat (natBytes n v) = v := by
  rw [bytesNat, foldl_natBytes, Nat.mod_eq_of_lt h, Nat.zero_mul, Nat.zero_add]

theorem reads_bytes (bs : List Byte) : Reads (readBytes bs.length) bs bs := fun rest => by
  have hlen : ¬(bs ++ rest).length < bs.length := by
    rw [List.length_append]
    omega
  rw [readBytes, if_neg hlen, List.take_left, List.drop_left]

theorem reads_nat {n v : Nat} (h : v < 256 ^ n) : Reads (readNat n) (natBytes n v) v := fun rest => by
  have hbytes := reads_bytes (natBytes n v) rest
  rw [natBytes_length] at hbytes
  rw [readNat, Reader.andThen, hbytes]
  exact congrArg (fun m => some (m, rest)) (bytesNat_natBytes h)

theorem reads_text {text : List Byte} (h : text.length < 256) : Reads readText (natBytes 1 text.length ++ text) text :=
  (reads_nat h).andThen (reads_bytes text)

theorem reads_flag (b : Bool) : Reads readFlag (natBytes 1 b.toNat) b := fun _ => by
  cases b with
  | false => rfl
  | true => rfl

theorem reads_absent {α : Type} (p : Reader α) : Reads (readOpt p) [0] none := fun _ => rfl

theorem reads_present {α : Type} {p : Reader α} {bs : List Byte} {a : α} (h : Reads p bs a) :
    Reads (readOpt p) (1 :: bs) (some a) := by
  have hthen := (reads_flag true).andThen
    (f := fun there => if there then p.andThen fun a => Reader.pure (some a) else Reader.pure none)
    (h.andThen (f := fun a => Reader.pure (some a)) (Reads.pure (some a)))
  rwa [List.append_nil] at hthen

theorem reads_rows {rows : List Nat} (h : ∀ r ∈ rows, r < 65536) :
    Reads (readRows rows.length) (rows.flatMap (natBytes 2)) rows := by
  induction rows with
  | nil => exact Reads.pure []
  | cons r rows ih =>
    obtain ⟨hr, hrows⟩ := List.forall_mem_cons.mp h
    have hthen := (reads_nat (n := 2) hr).andThen
      (f := fun v => (readRows rows.length).andThen fun vs => Reader.pure (v :: vs))
      ((ih hrows).andThen (f := fun vs => Reader.pure (r :: vs)) (Reads.pure (r :: rows)))
    rwa [List.append_nil] at hthen

/-- A preset tare, present or absent, as its bytes. -/
def presetRecord : Option Nat → List Byte
  | none => [0]
  | some p => 1 :: natBytes 2 p

theorem itemRecord_eq (plu : Nat) (text : List Byte) (basis price : Nat) (tare : Option Nat) (refer : Bool) :
    itemRecord plu text basis price tare refer =
      natBytes 4 plu ++ natBytes 1 text.length ++ text ++ natBytes 1 basis ++ natBytes 4 price ++ presetRecord tare ++
      natBytes 1 refer.toNat := by
  cases tare with
  | none => rfl
  | some p => rfl

theorem reads_preset {tare : Option Nat} (h : ∀ p, tare = some p → p < 65536) :
    Reads (readOpt (readNat 2)) (presetRecord tare) tare := by
  cases tare with
  | none => exact reads_absent _
  | some p => exact reads_present (reads_nat (h p rfl))

theorem reads_item {plu basis price : Nat} {text : List Byte} {tare : Option Nat} {refer : Bool} (hplu : plu < 2 ^ 32)
    (hbasis : basis < 256) (hprice : price < 2 ^ 32) (htext : text.length < 256) (htare : ∀ p, tare = some p → p < 65536) :
    Reads readItem (itemRecord plu text basis price tare refer) ⟨plu, text, basis, price, tare, refer⟩ := by
  have h : Reads readItem _ (RawItem.mk plu text basis price tare refer) := (reads_nat (n := 4) hplu).andThen ((reads_text htext).andThen ((reads_nat (n := 1) hbasis).andThen
    ((reads_nat (n := 4) hprice).andThen ((reads_preset htare).andThen ((reads_flag refer).andThen
      (Reads.pure _))))))
  simpa only [itemRecord_eq, List.append_assoc, List.append_nil] using h

theorem reads_span {f : Option (Nat × Nat)} (h : ∀ g, f = some g → g.1 < 256 ∧ g.2 < 256) :
    Reads (readOpt readSpan) (spanRecord f) f := by
  cases f with
  | none => exact reads_absent _
  | some g =>
    obtain ⟨hstart, hlength⟩ := h g rfl
    have hthen : Reads readSpan _ g := (reads_nat (n := 1) hstart).andThen ((reads_nat (n := 1) hlength).andThen (Reads.pure g))
    rw [List.append_nil] at hthen
    exact reads_present hthen

theorem reads_code {lead : List Byte} {total action : Nat} {check : Bool} {plu price : Option (Nat × Nat)}
    (hlead : lead.length < 256) (htotal : total < 256) (haction : action < 256)
    (hspans : ∀ f, plu = some f ∨ price = some f → f.1 < 256 ∧ f.2 < 256) :
    Reads readCode (codeRecord lead total check action plu price) ⟨lead, total, check, action, plu, price⟩ := by
  have h : Reads readCode _ (RawCode.mk lead total check action plu price) := (reads_text hlead).andThen ((reads_nat (n := 1) htotal).andThen ((reads_flag check).andThen
    ((reads_nat (n := 1) haction).andThen ((reads_span fun f hf => hspans f (.inl hf)).andThen
      ((reads_span fun f hf => hspans f (.inr hf)).andThen (Reads.pure _))))))
  simpa only [codeRecord, List.append_assoc, List.append_nil] using h

theorem reads_glyph {code : Nat} {rows : List Nat} (hcode : code < 256) (hlen : rows.length = 24)
    (hrows : ∀ r ∈ rows, r < 65536) :
    Reads readGlyph (natBytes 1 code ++ rows.flatMap (natBytes 2)) ⟨code, rows.map (BitVec.ofNat 12)⟩ := by
  have hreads := reads_rows hrows
  rw [hlen] at hreads
  have h : Reads readGlyph _ (GlyphEntry.mk code (rows.map (BitVec.ofNat 12))) := (reads_nat (n := 1) hcode).andThen
    (hreads.andThen (Reads.pure _))
  rwa [List.append_nil] at h

theorem reads_format {k w a b c m : Nat} (h : ∀ n ∈ [k, w, a, b, c, m], n < 256) :
    Reads readFormat ([k, w, a, b, c, m].flatMap (natBytes 1)) ⟨k, w, a, b, c, m⟩ := by
  have hbyte (n : Nat) (hn : n ∈ [k, w, a, b, c, m]) : Reads (readNat 1) (natBytes 1 n) n := reads_nat (h n hn)
  exact (hbyte k (by simp)).andThen ((hbyte w (by simp)).andThen ((hbyte a (by simp)).andThen ((hbyte b (by simp)).andThen
    ((hbyte c (by simp)).andThen ((hbyte m (by simp)).andThen (Reads.pure _))))))

theorem reads_header {kind position : Nat} {text : List Byte} {double : Bool} (hkind : kind < 256)
    (hposition : position < 256) (htext : text.length < 256) :
    Reads readHeader (headerRecord kind position text double) ⟨kind, position, text, double⟩ := by
  have h : Reads readHeader _ (RawHeader.mk kind position text double) := (reads_nat (n := 1) hkind).andThen ((reads_nat (n := 1) hposition).andThen ((reads_text htext).andThen
    ((reads_flag double).andThen (Reads.pure _))))
  simpa only [headerRecord, List.append_assoc, List.append_nil] using h

/-! ## A record is refused or enters (R178) -/

/-- What checks find: a reason, or the entry. -/
def verdictOf {α : Type} (failure : Option Reason) (a : α) : Except Reason α :=
  match failure with
  | some r => .error r
  | none => .ok a

/-- What becomes of a record that checks have looked at. -/
def recordResult (failure : Option Reason) (t : Tbs) : RecordResult :=
  match failure with
  | some r => .failed r
  | none => .entered t

/-- One check first, then the others. -/
theorem verdictOf_if {α : Type} {c d : Prop} [Decidable c] [Decidable d] {r : Reason} {e : Except Reason α}
    {failure : Option Reason} {a : α} (h : c ↔ d) (hrest : ¬d → e = verdictOf failure a) :
    (if c then .error r else e) = verdictOf (if d then some r else failure) a := by
  by_cases hd : d
  · rw [if_pos (h.mpr hd), if_pos hd]
    rfl
  · rw [if_neg (mt h.mp hd), if_neg hd]
    exact hrest hd

theorem enterRecord_eq {ρ α : Type} {read : Reader ρ} {check : List α → ρ → Except Reason α} {bank : TableBank α}
    {set : TableBank α → Tbs} {entry : List Byte} {r : ρ} {failure : Option Reason} {a : α} (hread : Reads read entry r)
    (hcheck : check bank.load r = verdictOf failure a) :
    enterRecord read check bank set entry = recordResult failure (set { bank with load := bank.load ++ [a] }) := by
  rw [enterRecord, hread.readAll]
  show (match check bank.load r with
    | .error e => RecordResult.failed e
    | .ok a => .entered (set { bank with load := bank.load ++ [a] })) = _
  rw [hcheck]
  cases failure with
  | none => rfl
  | some r => rfl

/-- A record of the open session is taken as its checks say. -/
theorem recordTaken_of {tag : Byte} {entry : List Byte} {x : Session} {failure : Option Reason} {put : Tbs → Tbs} {s : State}
    (hs : s.tbs.session = some x)
    (htake : ∀ u, AtRouter (.tableRecord tag entry) s u → takeRecord x.table entry u = recordResult failure (put u.tbs)) :
    RecordTaken tag entry x failure put s := by
  have hsession (u : State) (hu : AtRouter (.tableRecord tag entry) s u) : u.tbs.session = some x := by rw [hu.tbs, hs]
  cases failure with
  | none =>
    refine serves_of (h := tableRecord entry) rfl fun u hu => ?_
    have heq : tableRecord entry u = okay [.int 2 (x.count + 1 : Nat)]
        { u with tbs := { put u.tbs with session := some ⟨x.table, x.count + 1, u.clock + idleTime⟩ } } := by
      unfold tableRecord
      rw [hsession u hu]
      show (match takeRecord x.table entry u with
        | .badSize => _
        | .failed r => _
        | .entered t => _) = _
      rw [htake u hu]
      rfl
    rw [heq]
    exact ⟨rfl, withTables_works _ u, .inl rfl, finish_tbs _ _⟩
  | some r =>
    have h := serves_of_givenUp (v := .refused r) (n := x.table) (r := .invalid r (x.count + 1)) (session := fun _ => none)
      (h := tableRecord entry) (i := .tableRecord tag entry) (tag := tag) (s := s) rfl fun u hu => by
        have heq : tableRecord entry u = (abortSession x (.invalid r (x.count + 1)) u, ⟨.refused r, []⟩) := by
          unfold tableRecord
          rw [hsession u hu]
          show (match takeRecord x.table entry u with
            | .badSize => _
            | .failed r => _
            | .entered t => _) = _
          rw [htake u hu]
          rfl
        rw [heq]
        exact ⟨rfl, abortSession_givenUp x _ u, rfl⟩
    intro u hu
    obtain ⟨t, ht, hanswer, hchanges, hload, hempty, hclosed, hsame, hnote⟩ := h u hu
    exact ⟨t, ht, hanswer, hchanges, hclosed, hload, hempty, hsame, hnote⟩

end Sys2Proof.Machine
end

section
/-! Proofs about loaded tables: O60, the checks of each table's records in the order of their rule (R174 to R176). -/

namespace Sys2Proof.Machine

open Sys2Proof

/-! ## Item records (R174) -/

/-- A preset tare does not lie in its range (check 4 of R174). -/
theorem presetFits_false_iff (s : State) (p : Nat) :
    presetFits s p = false ↔
      if s.sst.state = .intact ∧ s.sst.image.record.valid = true then
        p < 1 ∨ s.sst.image.record.max1 < p ∨ p % s.sst.image.record.e1 ≠ 0
      else p < 1 ∨ 30000 < p := by
  unfold presetFits
  split
  · simp
    omega
  · simp
    omega

theorem basisOf_eq {b : Nat} (h : b ≤ 2) :
    basisOf b = some (if b = 0 then .perKg else if b = 1 then .per100g else .each) := by
  interval_cases b <;> rfl

theorem basisOf_none {b : Nat} (h : 2 < b) : basisOf b = none := by
  match b, h with
  | _ + 3, _ => rfl

theorem each_iff {b : Nat} (h : b ≤ 2) :
    (if b = 0 then Basis.perKg else if b = 1 then .per100g else .each) = .each ↔ b = 2 := by
  interval_cases b <;> decide

/-- The checks of an item record. -/
theorem checkItem_eq (s : State) (load : List ItemEntry) (plu basis price : Nat) (text : List Byte) (tare : Option Nat)
    (refer : Bool) :
    checkItem s load ⟨plu, text, basis, price, tare, refer⟩ = verdictOf
      (if plu < 1 ∨ 999999 < plu ∨ 2 < basis ∨ 999999 < price then some .range
       else if 24 < text.length then some .length
       else if basis = 2 ∧ tare ≠ none then some .range
       else if ∃ p ∈ tare, (if s.sst.state = .intact ∧ s.sst.image.record.valid = true then
           p < 1 ∨ s.sst.image.record.max1 < p ∨ p % s.sst.image.record.e1 ≠ 0
         else p < 1 ∨ 30000 < p) then some .range
       else if ∃ e ∈ load, e.plu = plu then some .duplicate
       else if 1024 ≤ load.length then some .limit
       else none)
      ⟨plu, text, if basis = 0 then .perKg else if basis = 1 then .per100g else .each, price, tare, refer⟩ := by
  unfold checkItem
  by_cases hb : 2 < basis
  · rw [if_pos (by omega)]
    simp only [basisOf_none hb]
    rfl
  · simp only [basisOf_eq (Nat.le_of_not_lt hb)]
    refine verdictOf_if ?_ fun _ => verdictOf_if Iff.rfl fun _ => verdictOf_if ?_ fun _ => verdictOf_if ?_ fun _ =>
      verdictOf_if ?_ fun _ => verdictOf_if Iff.rfl fun _ => rfl
    · simp [pluInRange]
      omega
    · rw [each_iff (Nat.le_of_not_lt hb), Option.isSome_iff_ne_none]
    · cases tare with
      | none => simp
      | some p => simpa using presetFits_false_iff s p
    · simp

/-! ## Code records (R175) -/

theorem actionOf_eq {a : Nat} (h : a ≤ 3) :
    actionOf a = some (if a = 0 then .forward else if a = 1 then .weigh else if a = 2 then .embedded else .block) := by
  interval_cases a <;> rfl

theorem actionOf_none {a : Nat} (h : 3 < a) : actionOf a = none := by
  match a, h with
  | _ + 4, _ => rfl

theorem fieldsUsed_iff {a : Nat} (h : a ≤ 3) (plu price : Option (Nat × Nat)) :
    fieldsUsed (if a = 0 then .forward else if a = 1 then .weigh else if a = 2 then .embedded else .block) plu price = true ↔
      (plu.isSome ↔ a = 1 ∨ a = 2) ∧ (price.isSome ↔ a = 2) := by
  interval_cases a <;> simp [fieldsUsed]

theorem all_false_iff {α : Type} (o : Option α) (f : α → Bool) : o.all f = false ↔ ∃ a ∈ o, f a = false := by
  cases o with
  | none => simp
  | some a => simp

theorem spanFits_false_iff (most : Nat) (f : Nat × Nat) :
    spanFits most f = false ↔ f.1 < 1 ∨ 20 < f.1 ∨ f.2 < 1 ∨ most < f.2 := by
  simp [spanFits]
  omega

theorem spanEnds_false_iff (last : Nat) (f : Nat × Nat) : spanEnds last f = false ↔ last < f.1 + f.2 - 1 := by
  simp [spanEnds]
  omega

theorem leadFits_false_iff (r : RawCode) :
    leadFits r = false ↔ r.lead.length < 1 ∨ 6 < r.lead.length ∨ (∃ d ∈ r.lead, d.toNat < 48 ∨ 57 < d.toNat) ∨
      (r.total ≠ 0 ∧ (r.total < 8 ∨ 20 < r.total)) := by
  have hdigits : r.lead.all isDigit = false ↔ ∃ d ∈ r.lead, d.toNat < 48 ∨ 57 < d.toNat := by
    simp [isDigit, or_iff_not_imp_left]
  rw [← hdigits]
  simp only [leadFits, Bool.and_eq_false_iff, Bool.or_eq_false_iff, decide_eq_false_iff_not, beq_eq_false_iff_ne,
    Nat.not_le, Nat.lt_one_iff, or_assoc, ne_eq]

theorem totalFitsFields_false_iff (r : RawCode) :
    totalFitsFields r = false ↔ r.total ≠ 0 ∧ (r.total < r.lead.length ∨
      (∃ f ∈ r.plu, (if r.check then r.total - 1 else r.total) < f.1 + f.2 - 1) ∨
      (∃ f ∈ r.price, (if r.check then r.total - 1 else r.total) < f.1 + f.2 - 1)) := by
  simp only [totalFitsFields, Bool.or_eq_false_iff, Bool.and_eq_false_iff, all_false_iff, spanEnds_false_iff,
    decide_eq_false_iff_not, Nat.not_le, beq_eq_false_iff_ne, or_assoc, ne_eq]

/-- The checks of a code record. -/
theorem checkCode_eq (load : List CodeEntry) (lead : List Byte) (total action : Nat) (check : Bool)
    (plu price : Option (Nat × Nat)) :
    checkCode load ⟨lead, total, check, action, plu, price⟩ = verdictOf
      (if lead.length < 1 ∨ 6 < lead.length ∨ (∃ d ∈ lead, d.toNat < 48 ∨ 57 < d.toNat) ∨
          (total ≠ 0 ∧ (total < 8 ∨ 20 < total)) ∨ 3 < action then some .range
       else if ¬(plu.isSome ↔ action = 1 ∨ action = 2) ∨ ¬(price.isSome ↔ action = 2) then some .range
       else if (∃ f ∈ plu, f.1 < 1 ∨ 20 < f.1 ∨ f.2 < 1 ∨ 6 < f.2) ∨
          (∃ f ∈ price, f.1 < 1 ∨ 20 < f.1 ∨ f.2 < 1 ∨ 9 < f.2) then some .range
       else if total ≠ 0 ∧ (total < lead.length ∨ (∃ f ∈ plu, (if check then total - 1 else total) < f.1 + f.2 - 1) ∨
          (∃ f ∈ price, (if check then total - 1 else total) < f.1 + f.2 - 1)) then some .range
       else if ∃ e ∈ load, e.lead = lead ∧ e.total = total then some .duplicate
       else if 64 ≤ load.length then some .limit
       else none)
      ⟨lead, total, check, if action = 0 then .forward else if action = 1 then .weigh
        else if action = 2 then .embedded else .block, plu, price⟩ := by
  unfold checkCode
  by_cases ha : 3 < action
  · rw [if_pos (.inr (.inr (.inr (.inr ha))))]
    simp only [actionOf_none ha]
    rfl
  · have hle := Nat.le_of_not_lt ha
    simp only [actionOf_eq hle]
    refine verdictOf_if ?_ fun _ => verdictOf_if ?_ fun _ => verdictOf_if ?_ fun _ => verdictOf_if ?_ fun _ =>
      verdictOf_if ?_ fun _ => verdictOf_if Iff.rfl fun _ => rfl
    · rw [Bool.not_eq_true', leadFits_false_iff]
      simp only [ha, or_false]
    · rw [Bool.not_eq_true', ← Bool.not_eq_true, fieldsUsed_iff hle]
      exact not_and_or
    · rw [Bool.not_eq_true', Bool.and_eq_false_iff, all_false_iff, all_false_iff]
      simp only [spanFits_false_iff]
    · rw [Bool.not_eq_true', totalFitsFields_false_iff]
    · simp

/-! ## Font, card format and header/trailer records (R176) -/

theorem checkGlyph_eq (load : List GlyphEntry) (g : GlyphEntry) :
    checkGlyph load g = verdictOf
      (if g.code < 32 ∨ 127 < g.code then some .range
       else if ∃ e ∈ load, e.code = g.code then some .duplicate
       else none) g := by
  unfold checkGlyph
  exact verdictOf_if Iff.rfl fun _ => verdictOf_if (by simp) fun _ => rfl

theorem trackOf_eq {k : Nat} (h : k ≤ 1) : trackOf k = some (if k = 0 then .a else .b) := by
  interval_cases k <;> rfl

theorem trackOf_none {k : Nat} (h : 1 < k) : trackOf k = none := by
  match k, h with
  | _ + 2, _ => rfl

theorem mostChars_track (k : Nat) : mostChars (if k = 0 then Track.a else .b) = if k = 0 then 79 else 40 := by
  split <;> rfl

theorem checkFormat_eq (load : List FormatEntry) (k w a b c m : Nat) :
    checkFormat load ⟨k, w, a, b, c, m⟩ = verdictOf
      (if 1 < k ∨ w < 4 ∨ 6 < w ∨ 2 ^ w ≤ a ∨ 2 ^ w ≤ b ∨ 2 ^ w ≤ c ∨ m < 2 ∨ (if k = 0 then 79 else 40) < m then some .range
       else if a = b ∨ a = c ∨ b = c then some .range
       else if ∃ e ∈ load, e.track = (if k = 0 then Track.a else .b) then some .duplicate
       else none)
      ⟨if k = 0 then Track.a else .b, w, a, b, c, m⟩ := by
  unfold checkFormat
  by_cases hk : 1 < k
  · rw [if_pos (.inl hk)]
    simp only [trackOf_none hk]
    rfl
  · simp only [trackOf_eq (Nat.le_of_not_lt hk)]
    refine verdictOf_if ?_ fun _ => verdictOf_if Iff.rfl fun _ => verdictOf_if ?_ fun _ => rfl
    · simp only [mostChars_track, hk, false_or]
    · simp

theorem checkHeader_eq (load : List HeaderEntry) (kind position : Nat) (text : List Byte) (double : Bool) :
    checkHeader load ⟨kind, position, text, double⟩ = verdictOf
      (if 1 < kind ∨ position < 1 ∨ 4 < position then some .range
       else if 32 < text.length then some .length
       else if ∃ e ∈ load, e.trailer = (kind == 1) ∧ e.position = position then some .duplicate
       else none)
      ⟨kind == 1, position, text, double⟩ := by
  unfold checkHeader
  exact verdictOf_if Iff.rfl fun _ => verdictOf_if Iff.rfl fun _ => verdictOf_if (by simp) fun _ => rfl

/-! ## The obligation -/

theorem recordTaken_cardFormat {tag : Byte} {s : State} {x : Session} (hs : s.tbs.session = some x)
    (hx : x.table = .cardFormat) {k w a b c m : Nat} (hbytes : ∀ n ∈ [k, w, a, b, c, m], n < 256) :
    RecordTaken tag ([k, w, a, b, c, m].flatMap (natBytes 1)) x
      (if 1 < k ∨ w < 4 ∨ 6 < w ∨ 2 ^ w ≤ a ∨ 2 ^ w ≤ b ∨ 2 ^ w ≤ c ∨ m < 2 ∨ (if k = 0 then 79 else 40) < m then some .range
       else if a = b ∨ a = c ∨ b = c then some .range
       else if ∃ e ∈ s.tbs.cardFormat.load, e.track = (if k = 0 then Track.a else .b) then some .duplicate
       else none)
      (fun t => { t with cardFormat := { t.cardFormat with
        load := t.cardFormat.load ++ [⟨if k = 0 then Track.a else .b, w, a, b, c, m⟩] } }) s := by
  refine recordTaken_of hs fun u hu => ?_
  obtain ⟨q, rfl⟩ := hu.eq
  rw [hx]
  exact enterRecord_eq (bank := s.tbs.cardFormat) (set := fun b => { s.tbs with cardFormat := b }) (reads_format hbytes) (checkFormat_eq _ _ _ _ _ _ _)

/-- Settles O60: the reader of each table takes the record's fields back, and its checks fail in the stated order. -/
theorem tableRecordsAreCheckedInOrder : Obligations.TableRecordsAreCheckedInOrder := by
  unfold Obligations.TableRecordsAreCheckedInOrder
  refine fun tag s x hs => ⟨?_, ?_, ?_, ?_, ?_⟩
  · intro plu basis price text tare refer hx hplu hbasis hprice htext htare misfits
    refine recordTaken_of hs fun u hu => ?_
    obtain ⟨q, rfl⟩ := hu.eq
    rw [hx]
    exact enterRecord_eq (bank := s.tbs.item) (set := fun b => { s.tbs with item := b }) (reads_item hplu hbasis hprice htext htare) (checkItem_eq _ _ _ _ _ _ _ _)
  · intro lead total action check plu price hx hlead htotal haction hspans last
    refine recordTaken_of hs fun u hu => ?_
    obtain ⟨q, rfl⟩ := hu.eq
    rw [hx]
    exact enterRecord_eq (bank := s.tbs.code) (set := fun b => { s.tbs with code := b }) (reads_code hlead htotal haction hspans) (checkCode_eq _ _ _ _ _ _ _)
  · intro code rows hx hcode hlen hrows
    refine recordTaken_of hs fun u hu => ?_
    obtain ⟨q, rfl⟩ := hu.eq
    rw [hx]
    exact enterRecord_eq (bank := s.tbs.font) (set := fun b => { s.tbs with font := b }) (reads_glyph hcode hlen hrows) (checkGlyph_eq _ _)
  · intro k w a b c m hx hbytes track
    exact recordTaken_cardFormat hs hx hbytes
  · intro kind position text double hx hkind hposition htext
    refine recordTaken_of hs fun u hu => ?_
    obtain ⟨q, rfl⟩ := hu.eq
    rw [hx]
    exact enterRecord_eq (bank := s.tbs.headerTrailer) (set := fun b => { s.tbs with headerTrailer := b }) (reads_header hkind hposition htext) (checkHeader_eq _ _ _ _ _)

end Sys2Proof.Machine
end

section
/-! Proofs about loaded tables: O53, the load session (R176 to R178, R180). -/

namespace Sys2Proof.Machine

open Sys2Proof

/-! ## TABLE_BEGIN (R177) -/

theorem tableBegin_unknown {name : List Byte} (h : tableNamed name = none) (s : State) :
    tableBegin name s = refuse .range s := by
  unfold tableBegin
  rw [h]

theorem tableBegin_busy {name : List Byte} {n : TableName} (h : tableNamed name = some n) {s : State}
    (hbusy : s.tbs.session ≠ none ∨ s.tbs.loadState n = .pending) : tableBegin name s = refuse .busy s := by
  unfold tableBegin
  rw [h]
  by_cases hs : s.tbs.session.isSome
  · exact if_pos hs
  · refine (if_neg hs).trans (if_pos (hbusy.resolve_left fun hne => hs ?_))
    exact Option.isSome_iff_ne_none.mpr hne

/-- A session opened on a table. -/
def State.begun (s : State) (n : TableName) : State :=
  { s with tbs := { s.tbs.edit n (fun _ b => b.opening) with session := some ⟨n, 0, s.clock + idleTime⟩ } }

theorem tableBegin_opens {name : List Byte} {n : TableName} (h : tableNamed name = some n) {s : State}
    (hs : s.tbs.session = none) (hl : s.tbs.loadState n ≠ .pending) : tableBegin name s = okay [] (s.begun n) := by
  unfold tableBegin
  rw [h]
  refine (if_neg ?_).trans (if_neg hl)
  simp [hs]

theorem begun_sameActive (s : State) (n : TableName) : s.sameActive (s.begun n) := by
  cases n <;> exact ⟨rfl, rfl, rfl, rfl, rfl, fun m => by cases m <;> rfl⟩

theorem begun_table (s : State) (n : TableName) :
    (s.begun n).tbs.loadState n = .loading ∧ ((s.begun n).tbs.look n fun _ b => b.load.length) = 0 := by
  cases n <;> exact ⟨rfl, rfl⟩

theorem look_edit_other {β : Type} {n m : TableName} (h : m ≠ n) (t : Tbs)
    (f : (α : Type) → TableBank α → TableBank α) (g : (α : Type) → TableBank α → β) :
    (t.edit n f).look m g = t.look m g := by
  cases n <;> cases m <;> simp_all [Tbs.look, Tbs.edit]

theorem loadState_withSession (t : Tbs) (x : Option Session) (m : TableName) :
    ({ t with session := x } : Tbs).loadState m = t.loadState m := by
  cases m <;> rfl

theorem begun_others (s : State) {n m : TableName} (h : m ≠ n) : (s.begun n).tbs.loadState m = s.tbs.loadState m :=
  (loadState_withSession _ _ m).trans (look_edit_other h _ _ _)

/-! ## The idle timer (R177) -/

theorem sessionIdle_aborts {s : State} {x : Session} (hs : s.tbs.session = some x) :
    sessionIdle s = abortSession x .idle (reach x.due s) := by
  unfold sessionIdle
  rw [hs]

/-! ## Records of a session (R178) -/

theorem readFormat_size {entry : List Byte} (h : entry.length ≠ 6) : readAll readFormat entry = none := by
  match entry, h with
  | [], _ => rfl
  | [_], _ => rfl
  | [_, _], _ => rfl
  | [_, _, _], _ => rfl
  | [_, _, _, _], _ => rfl
  | [_, _, _, _, _], _ => rfl
  | [_, _, _, _, _, _], h => exact absurd rfl h
  | _ :: _ :: _ :: _ :: _ :: _ :: _ :: _, _ => rfl

theorem enterRecord_badSize {ρ α : Type} {read : Reader ρ} {check : List α → ρ → Except Reason α} {bank : TableBank α}
    {set : TableBank α → Tbs} {entry : List Byte} (h : readAll read entry = none) :
    enterRecord read check bank set entry = .badSize := by
  rw [enterRecord, h]

theorem tableRecord_closed {s : State} (h : s.tbs.session = none) (entry : List Byte) :
    tableRecord entry s = refuse .state s := by
  unfold tableRecord
  rw [h]

theorem tableRecord_size {s : State} {x : Session} (hs : s.tbs.session = some x) {entry : List Byte}
    (hsize : takeRecord x.table entry s = .badSize) : tableRecord entry s = refuse .length s := by
  unfold tableRecord
  rw [hs]
  show (match takeRecord x.table entry s with
    | .badSize => _
    | .failed r => _
    | .entered t => _) = _
  rw [hsize]

theorem flatMap_natBytes_toNat (bs : List Byte) : (bs.map BitVec.toNat).flatMap (natBytes 1) = bs := by
  induction bs with
  | nil => rfl
  | cons b bs ih =>
    rw [List.map_cons, List.flatMap_cons, ih]
    simp [natBytes]

theorem flatMap_natBytes (l : List Nat) : l.flatMap (natBytes 1) = l.map (BitVec.ofNat 8) := by
  induction l with
  | nil => rfl
  | cons n l ih =>
    rw [List.flatMap_cons, ih]
    simp [natBytes]

theorem takesGoodFormat {tag : Byte} {s : State} {x : Session} (hs : s.tbs.session = some x) (hx : x.table = .cardFormat)
    {k : Track} {w a b c m : Nat} (hw : 4 ≤ w ∧ w ≤ 6) (ha : a < 2 ^ w) (hb : b < 2 ^ w) (hc : c < 2 ^ w)
    (hdistinct : a ≠ b ∧ a ≠ c ∧ b ≠ c) (hm : 2 ≤ m ∧ m ≤ if k = .a then 79 else 40)
    (hnew : ∀ e ∈ s.tbs.cardFormat.load, e.track ≠ k) :
    RecordTaken tag ([if k = .a then 0 else 1] ++ [w, a, b, c, m].map (BitVec.ofNat 8)) x none
      (fun t => { t with cardFormat := { t.cardFormat with load := t.cardFormat.load ++ [⟨k, w, a, b, c, m⟩] } }) s := by
  obtain ⟨hw4, hw6⟩ := hw
  obtain ⟨hab, hac, hbc⟩ := hdistinct
  obtain ⟨hm2, hmost⟩ := hm
  have hpow : 2 ^ w ≤ 64 := Nat.pow_le_pow_right (by decide) hw6
  have hmost79 : m ≤ 79 := hmost.trans (by split <;> omega)
  have hcode : trackCode k < 256 := by cases k <;> decide
  have hmem : ∀ n ∈ [trackCode k, w, a, b, c, m], n < 256 := by
    simp only [List.forall_mem_cons, List.not_mem_nil, false_implies, implies_true, and_true]
    omega
  have hranges : ¬(1 < trackCode k ∨ w < 4 ∨ 6 < w ∨ 2 ^ w ≤ a ∨ 2 ^ w ≤ b ∨ 2 ^ w ≤ c ∨ m < 2 ∨
      (if trackCode k = 0 then 79 else 40) < m) := by
    cases k with
    | a => simp [trackCode] at hmost ⊢; omega
    | b => simp [trackCode] at hmost ⊢; omega
  have htrack : (if trackCode k = 0 then Track.a else .b) = k := by cases k <;> rfl
  have hentry : [trackCode k, w, a, b, c, m].flatMap (natBytes 1) =
      [if k = .a then 0 else 1] ++ [w, a, b, c, m].map (BitVec.ofNat 8) := by
    rw [flatMap_natBytes]
    cases k <;> rfl
  have htaken := recordTaken_cardFormat (tag := tag) hs hx hmem
  rw [if_neg hranges, if_neg (by omega), htrack, if_neg fun ⟨e, he, hk⟩ => hnew e he hk, hentry] at htaken
  exact htaken

theorem refusesBadFormat {tag : Byte} {s : State} {x : Session} (hs : s.tbs.session = some x) (hx : x.table = .cardFormat)
    {k w a b c m : Byte} (hbad : 1 < k.toNat ∨ w.toNat < 4 ∨ 6 < w.toNat) :
    ∃ put, RecordTaken tag [k, w, a, b, c, m] x (some .range) put s := by
  have hmem : ∀ n ∈ [k, w, a, b, c, m].map BitVec.toNat, n < 256 := by
    intro n hn
    obtain ⟨v, _, rfl⟩ := List.mem_map.mp hn
    exact v.isLt
  have htaken := recordTaken_cardFormat (tag := tag) hs hx (k := k.toNat) (w := w.toNat) (a := a.toNat) (b := b.toNat)
    (c := c.toNat) (m := m.toNat) hmem
  rw [if_pos (by omega)] at htaken
  have hentry := flatMap_natBytes_toNat [k, w, a, b, c, m]
  simp only [List.map_cons, List.map_nil] at hentry
  rw [hentry] at htaken
  exact ⟨_, htaken⟩

/-- Settles O53: TABLE_BEGIN and the idle timer by the branches of their effects, the records as O60 takes them. -/
theorem tableSessionsTakeCheckedRecords : Obligations.TableSessionsTakeCheckedRecords := by
  unfold Obligations.TableSessionsTakeCheckedRecords
  refine ⟨⟨fun tag name s => ⟨fun hn => ?_, fun n hn => ⟨fun hs hl => ?_, fun hbusy => ?_⟩⟩, fun s x hs => ?_⟩,
    fun tag s => ⟨fun hs entry => ?_, fun x hs hx => ⟨?_, ?_, fun entry hlen => ?_⟩⟩⟩
  · exact refuses_of (h := tableBegin name) rfl fun u _ => tableBegin_unknown hn u
  · refine serves_of (h := tableBegin name) rfl fun u hu => ?_
    rw [tableBegin_opens hn (by rw [hu.tbs, hs]) (by rw [hu.tbs]; exact hl)]
    have htbs : (finish s (respond ⟨tag, .ok, [], false⟩ (okay [] (u.begun n)).1)).tbs = (u.begun n).tbs := finish_tbs _ _
    refine ⟨rfl, withTables_works _ u, .inl rfl, ?_⟩
    rw [htbs]
    obtain ⟨hload, hempty⟩ := begun_table u n
    exact ⟨rfl, hload, hempty, State.sameActive_of_tbs (begun_sameActive u n) htbs, fun m hm => begun_others u hm⟩
  · exact refuses_of (h := tableBegin name) rfl fun u hu => tableBegin_busy hn (by rw [hu.tbs]; exact hbusy)
  · have hgiven := abortSession_givenUp x .idle (reach x.due s)
    have hworks : Works [.clock, .tables] [13] s (sessionIdle s) := by
      rw [sessionIdle_aborts hs]
      exact ((reach_works x.due s).mono (by simp) (by simp)).trans (hgiven.works.mono (by simp) (by simp))
    refine does_of (f := sessionIdle) rfl hworks (.inl (detail_of_works hworks (by decide))) ?_
    rw [sessionIdle_aborts hs]
    have htbs : (finish s (abortSession x .idle (reach x.due s))).tbs = (abortSession x .idle (reach x.due s)).tbs :=
      finish_tbs _ _
    have hclock : (finish s (abortSession x .idle (reach x.due s))).clock = max s.clock x.due :=
      (finish_clock _ _).trans rfl
    refine ⟨hclock, by rw [htbs]; rfl, by rw [htbs]; exact hgiven.loadState, by rw [htbs]; exact hgiven.noEntries,
      State.sameActive_of_tbs hgiven.sameActive htbs, ?_⟩
    exact hgiven.standing.finish s (by simp [Notice.kind])
  · exact refuses_of (h := tableRecord entry) rfl fun u hu => tableRecord_closed (by rw [hu.tbs, hs]) entry
  · intro k w a b c m hw4 hw6 ha hb hc hab hac hbc hm2 hmost hnew
    have htaken := takesGoodFormat (tag := tag) hs hx ⟨hw4, hw6⟩ ha hb hc ⟨hab, hac, hbc⟩ ⟨hm2, hmost⟩ hnew
    rw [RecordTaken, hx] at htaken
    exact htaken
  · intro k w a b c m hbad
    obtain ⟨_, htaken⟩ := refusesBadFormat (tag := tag) (a := a) (b := b) (c := c) (m := m) hs hx hbad
    rw [RecordTaken, hx] at htaken
    refine htaken.imp fun u t _ ⟨hclosed, hload, hempty, hsame, hnote⟩ => ?_
    exact ⟨hclosed, hload, List.length_eq_zero_iff.mp hempty, hsame, hnote⟩
  · refine refuses_of (h := tableRecord entry) rfl fun u hu => tableRecord_size (by rw [hu.tbs, hs]) ?_
    rw [hx]
    exact enterRecord_badSize (bank := u.tbs.cardFormat) (set := fun b => { u.tbs with cardFormat := b })
      (check := checkFormat) (readFormat_size hlen)

end Sys2Proof.Machine
end

section
/-! Proofs about the reads: O57, each read's fields (R27, R53, R86, R87, R102, R118, R143, R155, R171, R185, R197, R198). -/

namespace Sys2Proof.Machine

open Sys2Proof

/-! ## A read at the router -/

theorem serves_read {i : Instr} {tag : Byte} {s : State} {r : State → State × Reply} {fs : State → List Field}
    (he : exec i s = request i tag r s) (hr : ∀ u, AtRouter i s u → r u = okay (fs u) u) :
    Serves i tag s .ok fs [] [] fun _ _ => True :=
  serves_of he fun u hu => by
    rw [hr u hu]
    exact ⟨rfl, Works.refl _ _ u, .inl rfl, trivial⟩

/-! ## Fields (R190) -/

theorem toNat_eq_ite (b : Bool) : b.toNat = if b then 1 else 0 := by cases b <;> rfl

theorem not_toNat_eq_ite (b : Bool) : (!b).toNat = if b then 0 else 1 := by cases b <;> rfl

section
variable {α β : Type}

theorem optFields_map (o : Option α) (g : α → β) (f : β → List Field) :
    optFields (o.map g) f = optFields o fun a => f (g a) := by
  cases o <;> rfl

theorem optFields_unless (c : Prop) [Decidable c] (a : α) (f : α → List Field) :
    optFields (if c then none else some a) f = if c then [.flag false] else .flag true :: f a := by
  split <;> rfl

theorem optFields_when (b : Bool) (a : α) (f : α → List Field) :
    optFields (if b then some a else none) f = if b then .flag true :: f a else [.flag false] := by
  cases b <;> rfl

theorem optFields_guard (c : Prop) [Decidable c] (o : Option α) (f : α → List Field) :
    (if c then optFields o f else [.flag false]) = optFields (if c then o else none) f := by
  split <;> rfl

theorem listFields_single (l : List α) (f : α → Field) :
    listFields l (fun a => [f a]) = .int 1 l.length :: l.map f := by
  rw [listFields, ← List.map_eq_flatMap]

end

/-! ## WEIGH_READ (R27) -/

theorem filtered_fault {s : State} (h : s.wch.state = .fault) : s.filtered? = none := by
  unfold State.filtered?
  rw [h]

theorem figures_fault {s : State} (h : s.wch.state = .fault) : s.figures? = none := by
  unfold State.figures?
  rw [h]

theorem filtered_running {s : State} {up : Update} (h : s.wch.state = .running) (hlast : s.wch.last = some up)
    (hover : s.wch.ind.overload = false) (hunder : s.wch.ind.underload = false) : s.filtered? = some up.f := by
  unfold State.filtered?
  rw [h, hlast, hover, hunder]
  rfl

theorem figures_running {s : State} {up : Update} {g : Figures} (h : s.wch.state = .running) (hlast : s.wch.last = some up)
    (hg : up.figures = some g) (hover : s.wch.ind.overload = false) (hunder : s.wch.ind.underload = false) :
    s.figures? = some g := by
  unfold State.figures?
  rw [h, hlast, hover, hunder]
  exact hg

/-! ## TABLE_STATUS (R185) -/

theorem sessionFields_eq (o : Option Session) (n : TableName) (f : Session → List Field) :
    optFields (o.filter fun x => x.table == n) f =
      match o with
      | some x => if x.table = n then .flag true :: f x else [.flag false]
      | none => [.flag false] := by
  cases o with
  | none => rfl
  | some x =>
    by_cases hx : x.table = n
    · simp [optFields, Option.filter, hx]
    · simp [optFields, Option.filter, hx]

theorem tableResult_fields (r : TableResult) :
    r.fields =
      match r with
      | .swapped => [.enum 0]
      | .invalid why position => [.enum 1, .enum why.code, .int 4 position]
      | .count => [.enum 2]
      | .idle => [.enum 3]
      | .cancelled => [.enum 4] := by
  cases r <;> rfl

theorem resting_eq (st : PrinterState) :
    st.resting =
      match st with
      | .idle => true
      | .halted _ => true
      | _ => false := by
  cases st <;> rfl

theorem swapReady_eq (s : State) (n : TableName) :
    s.swapReady n =
      match n with
      | .item => s.sru.openSlot.isNone
      | .code => s.sru.openSlot.isNone
      | .font => s.pen.queue.isEmpty && (match s.pen.state with | .idle => true | .halted _ => true | _ => false)
      | .headerTrailer => s.pen.queue.isEmpty && (match s.pen.state with | .idle => true | .halted _ => true | _ => false)
      | .cardFormat => (s.sdc.trackA.state == .idle || s.sdc.trackA.state == .done) &&
          (s.sdc.trackB.state == .idle || s.sdc.trackB.state == .done) := by
  cases n with
  | font => exact congrArg (s.pen.queue.isEmpty && ·) (resting_eq _)
  | headerTrailer => exact congrArg (s.pen.queue.isEmpty && ·) (resting_eq _)
  | _ => rfl

/-! ## LANE_STATUS (R198) -/

theorem laneStatus_works (u : State) : Works [.link] [] u (laneStatus u).1 :=
  Works.of rfl rfl rfl rfl fun p hp => by
    cases p with
    | link => exact absurd (List.mem_singleton_self _) hp
    | _ => rfl

/-- Settles O57: each read's report by its definition, field by field. -/
theorem readsReportTheStateAndChangeNothing : Obligations.ReadsReportTheStateAndChangeNothing := by
  unfold Obligations.ReadsReportTheStateAndChangeNothing
  intro tag s left optional tagged printer summary
  have hprinter (st : PrinterState) : st.fields = printer st := by cases st <;> rfl
  have hsummary (o : Sale) (clock : Nat) : o.summary clock = summary o clock := by
    unfold Sale.summary listFields
    rw [List.append_cons]
    rfl
  have hclosing (k : Option ClosingKind) : (k.toList.map fun k => Field.enum k.code) =
      match k with
      | some k => [.enum k.code]
      | none => [] := by
    cases k <;> rfl
  refine ⟨?_, ?_, ?_, ?_, ?_, ?_, ?_, ?_, ?_, ?_, ?_, ?_, ?_, ?_, ?_, ?_, ?_⟩
  · exact serves_read (r := weighReport) rfl fun u hu => rfl
  · intro c hstate hcause hcapture
    refine serves_read (r := weighReport) rfl fun u hu => ?_
    rw [← hu.wch] at hstate hcause hcapture
    unfold weighReport State.figureFields State.captureFields
    rw [filtered_fault hstate, figures_fault hstate, hstate, hcause, hcapture]
    rfl
  · intro up g hstate hcause hlast hg hover hunder
    refine serves_read (r := weighReport) rfl fun u hu => ?_
    rw [← hu.wch] at hstate hcause hlast hover hunder
    unfold weighReport State.figureFields State.captureFields
    rw [filtered_running hstate hlast hover hunder, figures_running hstate hlast hg hover hunder, hstate, hcause]
    obtain ⟨_, tare, _, _, _⟩ := g
    cases tare <;> rfl
  · refine serves_read (r := storeRead) rfl fun u hu => ?_
    unfold storeRead
    rw [optFields_unless, optFields_when, optFields_guard, toNat_eq_ite]
    generalize (if u.wch.state = .cal then u.wch.cal else none) = context
    cases context with
    | none => rfl
    | some c =>
      obtain ⟨run, _, _, _, _⟩ := c
      cases run with
      | none => rfl
      | some r =>
        obtain ⟨step, _, _, _, _⟩ := r
        cases step <;> rfl
  · refine serves_read (r := saleRead) rfl fun u hu => ?_
    unfold saleRead Sale.closingSummary
    simp only [hsummary, listFields_single, hclosing]
    rfl
  · intro place n o l hplace hline
    refine serves_read (r := lineRead place n) rfl fun u hu => ?_
    unfold lineRead
    rw [hu.sru, hplace]
    show (match o.line? n with
      | none => _
      | some l => okay (l.fields (o.reason? n)) u) = _
    rw [hline, Sale.reason?]
    unfold Line.fields
    simp only [optFields_map]
    rfl
  · intro place n hplace
    refine refuses_of (h := lineRead place n) rfl fun u hu => ?_
    unfold lineRead
    rw [hu.sru, hplace]
  · intro place n o hplace hline
    refine refuses_of (h := lineRead place n) rfl fun u hu => ?_
    unfold lineRead
    rw [hu.sru, hplace]
    show (match o.line? n with
      | none => _
      | some l => okay (l.fields (o.reason? n)) u) = _
    rw [hline]
  · exact serves_read (r := cardRead) rfl fun u hu => rfl
  · refine serves_read (r := tillRead) rfl fun u hu => ?_
    unfold tillRead
    rw [not_toNat_eq_ite]
    rfl
  · refine serves_read (r := printRead) rfl fun u hu => ?_
    unfold printRead
    rw [not_toNat_eq_ite, hprinter, List.append_assoc (printer u.pen.state)]
    cases u.pen.queue with
    | nil => rfl
    | cons e _ => cases e <;> rfl
  · refine serves_read (r := budgetRead) rfl fun u hu => ?_
    unfold budgetRead listFields
    simp only [not_toNat_eq_ite]
    rfl
  · refine serves_read (r := accessoryRead) rfl fun u hu => ?_
    unfold accessoryRead State.unitFields
    simp only [← List.countP_eq_length_filter]
    rfl
  · refine serves_read (r := tableStatus) rfl fun u hu => ?_
    unfold tableStatus
    refine congrArg (fun f : TableName → List Field =>
      okay ([TableName.item, .code, .font, .cardFormat, .headerTrailer].flatMap f) u) (funext fun n => ?_)
    unfold State.tableFields
    rw [sessionFields_eq, swapReady_eq, funext tableResult_fields]
    cases n <;> rfl
  · intro name hname
    refine refuses_of (h := getParam name) rfl fun u hu => ?_
    unfold getParam
    rw [hname]
  · intro name k hname
    refine serves_read (r := getParam name) rfl fun u hu => ?_
    unfold getParam
    rw [hname]
  · refine serves_of (h := laneStatus) rfl fun u hu => ⟨?_, laneStatus_works u, .inl rfl, ?_⟩
    · unfold laneStatus State.laneStatus State.wchSummary State.sruSummary State.driveSummary State.acpSummary
      rw [toNat_eq_ite, hprinter]
      simp only [List.append_assoc, List.cons_append, List.nil_append]
      rfl
    · rw [finish_settings]
      rfl
end Sys2Proof.Machine
end
